-- ==== Sys2Proof/Word.lean ====
section
/-! DEFINITION. The words of the block and the bit numbering of 00_scope.md rule R10: bit 0 of a
register is its least significant bit, and position 0 of an LTC word, its least significant bit too,
is the first bit rendered. -/

namespace Sys2Proof

/-- One register of the register window, and one command word: 32 bits (R35, R110). -/
abbrev Word := BitVec 32

/-- One byte: a byte offset into the 256-byte register window (R81), or one byte lane (R84). -/
abbrev Byte := BitVec 8

/-- One PCM sample: 16-bit two's complement (R88). -/
abbrev Sample := BitVec 16

/-- The 80-bit LTC word W; `W.getLsbD k` is the bit at position k (R10, R118). -/
abbrev LtcWord := BitVec 80

end Sys2Proof
end

