-- ==== Sys2Proof/Syntax.lean ====
section
/-! DEFINITION. What the host can say to the block: the nine commands of the opcode table
(30_encoding.md rule R111), the fifteen registers of the window (20_memory.md rule R82), one bus
access (R81), and the lines of the host program syntax (R117). -/

namespace Sys2Proof

/-- A command, one constructor per row of the opcode table. A command has no operand fields: every
operand is a register (R110, R114). -/
inductive Instr where
  /-- OP 0x0: no operation (R270). -/
  | nop
  /-- OP 0x1: advance the timecode by one frame (R160). -/
  | advance
  /-- OP 0x2: assemble the LTC word (R190). -/
  | build
  /-- OP 0x3: compute the next frame's span (R227). -/
  | nextspan
  /-- OP 0x4: render the word as samples (R220). -/
  | render
  /-- OP 0x5: one whole frame (R271). -/
  | frame
  /-- OP 0x6: FRAMES frames (R274). -/
  | generate
  /-- OP 0x7: reset the encoder state (R232). -/
  | segreset
  /-- OP 0x8: stop a running GENERATE at its next frame boundary (R276). -/
  | abort
  deriving DecidableEq, Repr

/-- The fifteen registers of the window (R35, R82). -/
inductive Reg where
  | id
  | cmd
  | status
  | cause
  | irqEn
  | tc
  | rate
  | srate
  | amp
  | span
  | frames
  | enc
  | word0
  | word1
  | word2
  deriving DecidableEq, Repr

/-- One host access to the register window: a byte offset, the access width in bits, and for a write
the value (R81, R83). The data of a write that is not 32 bits wide is dropped, so 32 bits hold every
write that matters. -/
inductive Access where
  | read (off : Byte) (width : Nat)
  | write (off : Byte) (width : Nat) (v : Word)
  deriving DecidableEq, Repr

/-- What a line of a host program reads or writes: a register by its name, or, as program P5 of
95_test_vectors.md has it in `RD 0x3C`, a byte offset (R117; log entry 25). -/
inductive Target where
  | reg (r : Reg)
  | offset (off : Byte)
  deriving DecidableEq, Repr

/-- One line of a host program (R117): a register access, a command, or a pseudo-instruction. -/
inductive HostLine where
  /-- `WR reg, value` -/
  | wr (t : Target) (v : Nat)
  /-- `RD reg` -/
  | rd (t : Target)
  /-- a command mnemonic alone -/
  | cmd (i : Instr)
  /-- `SETTC hh:mm:ss:ff` -/
  | settc (h m s f : Nat)
  /-- `WAIT` -/
  | wait
  /-- `CLRST` -/
  | clrst
  /-- `GENSEQ hh:mm:ss:ff, r, n` -/
  | genseq (h m s f r n : Nat)
  deriving DecidableEq, Repr

end Sys2Proof
end

