-- ==== Sys2Proof/Decode.lean ====
section
/-! DEFINITION. The command word's encoding (30_encoding.md part A): the decoder, total on every
word and on every list of bytes, and the encoder, written from the table of rule R111. -/

namespace Sys2Proof

/-- Why bits are no command. -/
inductive DecodeError where
  /-- A bit of 31:4 is not 0 (R113). -/
  | reservedBits
  /-- OP is one of 0x9 to 0xF (R113). -/
  | reservedOpcode
  /-- Not four bytes: a command is one 32-bit word (R110). -/
  | notOneWord
  deriving DecidableEq, Repr

/-- What the decoder answers. -/
inductive Decoded where
  | command (i : Instr)
  | reject (e : DecodeError)
  deriving DecidableEq, Repr

/-- The field OP, bits 3:0 (R110). -/
def opField (v : Word) : BitVec 4 := v.extractLsb' 0 4

/-- The field RSVD, bits 31:4 (R110). -/
def rsvdField (v : Word) : BitVec 28 := v.extractLsb' 4 28

/-- The opcode map (R111); 0x9 to 0xF are reserved (R113). -/
def decodeOp (op : BitVec 4) : Option Instr :=
  match op.toNat with
  | 0 => some .nop
  | 1 => some .advance
  | 2 => some .build
  | 3 => some .nextspan
  | 4 => some .render
  | 5 => some .frame
  | 6 => some .generate
  | 7 => some .segreset
  | 8 => some .abort
  | _ => none

/-- The command a word holds, or why it holds none (R110, R111, R113). -/
def decode (v : Word) : Decoded :=
  if rsvdField v ≠ 0#28 then .reject .reservedBits
  else
    match decodeOp (opField v) with
    | some i => .command i
    | none => .reject .reservedOpcode

/-- The 32-bit value on four byte lanes, the byte at the lowest address holding bits 7:0 (R84). -/
def ofLanes (b0 b1 b2 b3 : Byte) : Word := (b3 ++ b2 ++ b1 ++ b0).cast rfl

/-- The four byte lanes of a 32-bit value, lowest address first (R84). -/
def lanes (v : Word) : List Byte :=
  [v.extractLsb' 0 8, v.extractLsb' 8 8, v.extractLsb' 16 8, v.extractLsb' 24 8]

/-- The decoder on bytes as the host bus presents them (R84, R110). -/
def decodeBytes : List Byte → Decoded
  | [b0, b1, b2, b3] => decode (ofLanes b0 b1 b2 b3)
  | _ => .reject .notOneWord

/-- The command the decoder reads, if any. -/
def Decoded.toOption : Decoded → Option Instr
  | .command i => some i
  | .reject _ => none

/-- The decoder on a row of the opcode table: `nbits` bits whose value is `w`, every higher bit of
the command word 0. -/
def decodeTableWord (nbits w : Nat) : Option Instr :=
  if nbits ≤ 32 then (decodeBytes (lanes (BitVec.ofNat 32 (w % 2 ^ nbits)))).toOption else none

/-- The word of a command (R111, column "word"). -/
def encode : Instr → Word
  | .nop => 0x00000000#32
  | .advance => 0x00000001#32
  | .build => 0x00000002#32
  | .nextspan => 0x00000003#32
  | .render => 0x00000004#32
  | .frame => 0x00000005#32
  | .generate => 0x00000006#32
  | .segreset => 0x00000007#32
  | .abort => 0x00000008#32

/-- The opcode of a command: bits 3:0 of its word (R110), as CAUSE.OP records it (R47). -/
def Instr.op (i : Instr) : BitVec 4 := opField (encode i)

end Sys2Proof
end

