-- ==== Sys2Proof/Config.lean ====
section
/-! DEFINITION. The parameters of the block: the table of 00_scope.md rule R8, and the two
enumerations its rows range over. The two parameters R8 leaves OPEN are constants without a body. -/

namespace Sys2Proof

/-- The rate selector (R13, R34, R115): 0 = 24 fps, 1 = 25 fps, 2 = 29.97 fps drop-frame,
3 = 30 fps. -/
inductive RateType where
  | fps24
  | fps25
  | fps2997
  | fps30
  deriving DecidableEq, Repr

/-- The sign of the output level, +1 or -1 (R13, R42). -/
inductive Polarity where
  | plus
  | minus
  deriving DecidableEq, Repr

namespace Config

/-- ID reads this constant: ASCII "LTC" and spec interface revision 1 (R44). -/
def idValue : Word := 0x4C544301#32

/-- PHASE_DEN, written L: phase units per sample, lcm(24, 25, 30, 2997) (R8). -/
def phaseDen : Nat := 599400

/-- MIN_SPAN: the least renderable sample count (R8). -/
def minSpan : Nat := 160

/-- Half-cells per frame: two for each of the 80 bits (R8). -/
def halfCells : Nat := 160

/-- Position of the parity correction bit, for every rate (R8, R122). -/
def parityPos : Nat := 27

/-- Position of the drop-frame flag (R123). -/
def dropFramePos : Nat := 10

/-- Position of the first sync bit (R121). -/
def syncPos : Nat := 64

/-- The sync word in position order, starting at position 64 (R121; 90_conflicts.md C1). -/
def syncBits : List Bool :=
  [false, false, true, true, true, true, true, true, true, true, true, true, true, true, false, true]

/-- AMP after reset: 16384 (R8, R52). -/
def ampReset : BitVec 15 := 16384#15

/-- SRATE after reset: 48000 Hz (R8, R52). -/
def srateReset : Word := 48000#32

/-- INIT_POL: encoder polarity after reset and after a segment reset (R8, R52). -/
def initPol : Polarity := .plus

/-- LATENCY, OPEN: clock cycles a command step takes (R8, R351). No definition of the model depends
on it: which step comes next is data of the state's schedule (log entry 2). -/
opaque latency : Nat

/-- CLOCK, OPEN: the core clock frequency (R8, R351). No definition of the model depends on it. -/
opaque clock : Nat

end Config
end Sys2Proof
end

