-- ==== Sys2Proof/Machine/State.lean ====
section
/-! DEFINITION. The state: every register of 10_state.md rule R35, the internal state of rule R50,
the two input pins, and the plain data that stands for the two external agents of rule R30 (what the
environment does next, and what it has received). Registers are held by field, each at its own
width, so a reserved bit (R49) is stored nowhere. -/

namespace Sys2Proof.Machine

/-- A timecode value (h, m, s, f) of naturals (R13). -/
structure Timecode where
  h : Nat
  m : Nat
  s : Nat
  f : Nat
  deriving DecidableEq, Repr

/-- TC: FRAME[4:0], SEC[13:8], MIN[21:16], HOUR[28:24], binary (R36). -/
structure TcReg where
  hour : BitVec 5
  min : BitVec 6
  sec : BitVec 6
  frame : BitVec 5
  deriving DecidableEq, Repr

/-- ENC: POL[31] (0 is +1) and PHASE[19:0] (R42). -/
structure EncReg where
  pol : Polarity
  phase : BitVec 20
  deriving DecidableEq, Repr

/-- The write-1-to-clear bits of STATUS: DONE[1], ERR[2], ABORTED[3] (R46). BUSY[0] is
`State.busy`: it is 1 exactly while a command runs. -/
structure StatusReg where
  done : Bool
  err : Bool
  aborted : Bool
  deriving DecidableEq, Repr

/-- The cause codes (R301). Codes 8 to 15 are never recorded, so they have no constructor. -/
inductive Cause where
  | none
  | illegalCmd
  | busy
  | tcRange
  | srateZero
  | spanShort
  | phaseRange
  | badAccess
  deriving DecidableEq, Repr

/-- CAUSE: CODE[3:0], OP[7:4], ACC[8], OFFSET[23:16] (R47). -/
structure CauseReg where
  code : Cause
  op : BitVec 4
  acc : Bool
  offset : Byte
  deriving DecidableEq, Repr

/-- IRQ_EN: DONE_IE[1], ERR_IE[2], ABORT_IE[3] (R48). -/
structure IrqEnReg where
  doneIe : Bool
  errIe : Bool
  abortIe : Bool
  deriving DecidableEq, Repr

/-- A sample on the output port: SMP_DATA and SMP_SOF (R86). -/
structure PortSample where
  data : Sample
  sof : Bool
  deriving DecidableEq, Repr

/-- How far the running command has come (R50 items 3 and 4, R91). -/
inductive Phase where
  /-- Accepted; or, under GENERATE, about to begin its next frame. -/
  | start
  /-- Sample `n` of the frame is on the output port and not yet accepted by the sink. -/
  | emit (n : Nat) (p : PortSample)
  /-- The sink has accepted the frame's last sample; the end-of-frame commit is next. -/
  | commit
  /-- The end-of-frame commit is made; completion, or GENERATE's boundary check, is next. -/
  | finish
  deriving DecidableEq, Repr

/-- The running command and its progress (R50 item 3). -/
structure Running where
  cmd : Instr
  phase : Phase
  deriving DecidableEq, Repr

/-- Who moves next, and how: one entry of the environment's schedule (log entry 1). -/
inductive Turn where
  /-- The host makes one access to the register window (R81). -/
  | host (a : Access)
  /-- The host polls STATUS until BUSY = 0: the pseudo-instruction WAIT (R117). -/
  | wait
  /-- The sink drives SMP_READY (R86). -/
  | sink (ready : Bool)
  /-- The platform drives RST (R340). -/
  | rst (level : Bool)
  /-- The block makes its own next update (R90). -/
  | core
  deriving DecidableEq, Repr

structure State where
  /-- STATUS bits 3:1 (R46). -/
  status : StatusReg
  /-- CAUSE (R47). -/
  cause : CauseReg
  /-- IRQ_EN (R48). -/
  irqEn : IrqEnReg
  /-- TC (R36). -/
  tc : TcReg
  /-- RATE[1:0] (R37). -/
  rate : RateType
  /-- SRATE (R38). -/
  srate : Word
  /-- AMP[14:0] (R39). -/
  amp : BitVec 15
  /-- SPAN (R40). -/
  span : Word
  /-- FRAMES (R41). -/
  frames : Word
  /-- ENC (R42). -/
  enc : EncReg
  /-- WORD0, WORD1 and WORD2[15:0], as the one LTC word they hold (R43). -/
  word : LtcWord
  /-- The running polarity (R50 item 1). -/
  runPol : Polarity
  /-- The abort latch (R50 item 2). -/
  abortLatch : Bool
  /-- The running command, its progress and the sample on the port (R50 items 3 and 4); none means
  BUSY = 0 (R46). -/
  running : Option Running
  /-- The input SMP_READY, driven by the sink (R86). -/
  smpReady : Bool
  /-- The input RST (R340). -/
  rst : Bool
  /-- What the environment does next, first first; when it is empty the block runs freely. The
  model's own field (log entry 1). -/
  schedule : List Turn
  /-- The samples the sink has accepted, newest first. The model's own field (log entry 3). -/
  sent : List PortSample
  /-- The values host reads have returned, newest first. The model's own field (log entry 3). -/
  reads : List Word
  deriving DecidableEq, Repr

/-- No reason: nothing in the block stops it. An error is recorded in STATUS and CAUSE and the block
goes on (R300); there is no double fault and no lock-up (R309). Having no constructor is safe: every
case of the spec has a next state. -/
inductive Fault where
  deriving DecidableEq, Repr

/-- Why the model gives an instruction no meaning. -/
inductive Refusal where
  /-- Raised by a dispatch arm whose instruction has no meaning yet; no arm does. Safe: a claim about
  such an instruction is unprovable. -/
  | notModelled (mnemonic : String)
  deriving DecidableEq, Repr

/-- No error recorded: CAUSE reads 0 (R47, R52). -/
def CauseReg.clear : CauseReg := ⟨.none, 0#4, false, 0#8⟩

/-- The encoder state after reset and after a segment reset (R52, R53). -/
def EncReg.initial : EncReg := ⟨Config.initPol, 0#20⟩

/-- The machine right after reset: the table of 10_state.md rule R52. The environment's fields take
the values of log entry 4. -/
def State.reset : State where
  status := ⟨false, false, false⟩
  cause := CauseReg.clear
  irqEn := ⟨false, false, false⟩
  tc := ⟨0#5, 0#6, 0#6, 0#5⟩
  rate := .fps24
  srate := Config.srateReset
  amp := Config.ampReset
  span := 0#32
  frames := 0#32
  enc := EncReg.initial
  word := 0#80
  runPol := Config.initPol
  abortLatch := false
  running := none
  smpReady := true
  rst := false
  schedule := []
  sent := []
  reads := []

/-- STATUS.BUSY: 1 from the acceptance of a command until its completion (R46, R307). -/
def State.busy (s : State) : Bool := s.running.isSome

end Sys2Proof.Machine
end

