-- ==== Sys2Proof/Machine/Operands.lean ====
section
/-! DEFINITION. How the values the rules compute with stand in the registers: the rate constants
(10_state.md R34), the packing of every register (R36 to R49), the timecode operand (30_encoding.md
R116), the LTC word's three registers (R43) and the byte lanes of a sample (20_memory.md R88). -/

namespace Sys2Proof

/-- DIV(r), the integer frame divisor (R34). -/
def RateType.div : RateType → Nat
  | .fps24 => 24
  | .fps25 => 25
  | .fps2997 => 30
  | .fps30 => 30

/-- Numerator of EXACT(r), the exact frame rate (R34). -/
def RateType.exactNum : RateType → Nat
  | .fps24 => 24
  | .fps25 => 25
  | .fps2997 => 2997
  | .fps30 => 30

/-- Denominator of EXACT(r) (R34). -/
def RateType.exactDen : RateType → Nat
  | .fps24 => 1
  | .fps25 => 1
  | .fps2997 => 100
  | .fps30 => 1

/-- K(r) = L / EXACT(r), the frame period in phase units per Hz (R34). -/
def RateType.period (r : RateType) : Nat := Config.phaseDen * r.exactDen / r.exactNum

/-- Only rate 2 is drop-frame (R34). -/
def RateType.dropFrame : RateType → Bool
  | .fps24 => false
  | .fps25 => false
  | .fps2997 => true
  | .fps30 => false

/-- The selector of a rate (R115). -/
def RateType.selector : RateType → BitVec 2
  | .fps24 => 0#2
  | .fps25 => 1#2
  | .fps2997 => 2#2
  | .fps30 => 3#2

/-- The rate of a selector; every value is legal (R37, R115). -/
def RateType.ofSelector (b : BitVec 2) : RateType :=
  match b.toNat with
  | 0 => .fps24
  | 1 => .fps25
  | 2 => .fps2997
  | _ => .fps30

/-- POL: 0 is +1 and 1 is -1 (R42). -/
def Polarity.bit : Polarity → Bool
  | .plus => false
  | .minus => true

/-- The polarity of a POL bit (R42, R220). -/
def Polarity.ofBit : Bool → Polarity
  | false => .plus
  | true => .minus

/-- Negation of a polarity (R222). -/
def Polarity.flip : Polarity → Polarity
  | .plus => .minus
  | .minus => .plus

namespace Machine

/-- `ROUND(n / d) = (2n + d) div (2d)`, an exact half rounded up (R11). The constant stands first in the
sum so that a kernel check on a symbolic `n` stops at once. -/
def roundDiv (n d : Nat) : Nat := (d + 2 * n) / (2 * d)

/-- The timecode TC holds. -/
def TcReg.value (t : TcReg) : Timecode := ⟨t.hour.toNat, t.min.toNat, t.sec.toNat, t.frame.toNat⟩

/-- TC holding a timecode (R116). -/
def TcReg.ofTimecode (t : Timecode) : TcReg :=
  ⟨BitVec.ofNat 5 t.h, BitVec.ofNat 6 t.m, BitVec.ofNat 6 t.s, BitVec.ofNat 5 t.f⟩

/-- The 32 bits TC reads (R36, R116); its reserved bits are 0 (R49). -/
def TcReg.pack (t : TcReg) : Word :=
  (0#3 ++ t.hour ++ 0#2 ++ t.min ++ 0#2 ++ t.sec ++ 0#3 ++ t.frame).cast rfl

/-- TC after a write of `v`, reserved bits ignored (R36, R49). -/
def TcReg.unpack (v : Word) : TcReg :=
  ⟨v.extractLsb' 24 5, v.extractLsb' 16 6, v.extractLsb' 8 6, v.extractLsb' 0 5⟩

/-- The 32 bits ENC reads (R42). -/
def EncReg.pack (e : EncReg) : Word := (BitVec.ofBool e.pol.bit ++ 0#11 ++ e.phase).cast rfl

/-- ENC after an accepted write of `v` (R42). -/
def EncReg.unpack (v : Word) : EncReg := ⟨Polarity.ofBit (v.getLsbD 31), v.extractLsb' 0 20⟩

/-- The cause codes (R301). -/
def Cause.code : Cause → BitVec 4
  | .none => 0#4
  | .illegalCmd => 1#4
  | .busy => 2#4
  | .tcRange => 3#4
  | .srateZero => 4#4
  | .spanShort => 5#4
  | .phaseRange => 6#4
  | .badAccess => 7#4

/-- The 32 bits CAUSE reads: {8'b0, OFFSET, 7'b0, ACC, OP, CODE} (R47, R303). -/
def CauseReg.pack (c : CauseReg) : Word :=
  (0#8 ++ c.offset ++ 0#7 ++ BitVec.ofBool c.acc ++ c.op ++ c.code.code).cast rfl

/-- The 32 bits STATUS reads: ABORTED[3], ERR[2], DONE[1], BUSY[0] (R46). -/
def StatusReg.pack (st : StatusReg) (busy : Bool) : Word :=
  (0#28 ++ BitVec.ofBool st.aborted ++ BitVec.ofBool st.err ++ BitVec.ofBool st.done ++
    BitVec.ofBool busy).cast rfl

/-- The 32 bits IRQ_EN reads (R48). -/
def IrqEnReg.pack (q : IrqEnReg) : Word :=
  (0#28 ++ BitVec.ofBool q.abortIe ++ BitVec.ofBool q.errIe ++ BitVec.ofBool q.doneIe ++ 0#1).cast rfl

/-- IRQ_EN after a write of `v` (R48). -/
def IrqEnReg.unpack (v : Word) : IrqEnReg := ⟨v.getLsbD 1, v.getLsbD 2, v.getLsbD 3⟩

/-- WORD0 = W[31:0] (R43). -/
def word0 (w : LtcWord) : Word := w.extractLsb' 0 32

/-- WORD1 = W[63:32] (R43). -/
def word1 (w : LtcWord) : Word := w.extractLsb' 32 32

/-- WORD2 = zext_32(W[79:64]) (R43, R190). -/
def word2 (w : LtcWord) : Word := (0#16 ++ w.extractLsb' 64 16).cast rfl

/-- The word after a host write of WORD0 (R43). -/
def withWord0 (w : LtcWord) (v : Word) : LtcWord := (w.extractLsb' 32 48 ++ v).cast rfl

/-- The word after a host write of WORD1 (R43). -/
def withWord1 (w : LtcWord) (v : Word) : LtcWord :=
  (w.extractLsb' 64 16 ++ v ++ w.extractLsb' 0 32).cast rfl

/-- The word after a host write of WORD2, bits 31:16 ignored (R43, R49). -/
def withWord2 (w : LtcWord) (v : Word) : LtcWord :=
  (v.extractLsb' 0 16 ++ w.extractLsb' 0 64).cast rfl

/-- The reserved bits of a register (R36 to R39, R42, R43, R46 to R49, R110). ID is a constant and has
none. -/
def reservedMask : Reg → Word
  | .id => 0#32
  | .cmd => 0xFFFFFFF0#32
  | .status => 0xFFFFFFF0#32
  | .cause => 0xFF00FE00#32
  | .irqEn => 0xFFFFFFF1#32
  | .tc => 0xE0C0C0E0#32
  | .rate => 0xFFFFFFFC#32
  | .srate => 0#32
  | .amp => 0xFFFF8000#32
  | .span => 0#32
  | .frames => 0#32
  | .enc => 0x7FF00000#32
  | .word0 => 0#32
  | .word1 => 0#32
  | .word2 => 0xFFFF0000#32

/-- The bytes of a sample as a sink serialises it, SMP_DATA[7:0] first (R88). -/
def sampleBytes (d : Sample) : List Byte := [d.extractLsb' 0 8, d.extractLsb' 8 8]

end Machine
end Sys2Proof
end

