-- ==== Sys2Proof/Machine/Flags.lean ====
section
/-! DEFINITION. The status bits: write-1-to-clear (10_state.md R46, 60_exceptions.md R308) and the
interrupt line (R306). The block has no other flags (R51). -/

namespace Sys2Proof.Machine

/-- STATUS after a host write of `v`: each of DONE, ERR, ABORTED is cleared where `v` holds 1 (R46). -/
def StatusReg.clearOnes (st : StatusReg) (v : Word) : StatusReg :=
  ⟨st.done && !v.getLsbD 1, st.err && !v.getLsbD 2, st.aborted && !v.getLsbD 3⟩

/-- CAUSE after a host write of `v` to STATUS: 0 if the write holds 1 at ERR, else unchanged (R46). -/
def CauseReg.afterStatusWrite (c : CauseReg) (v : Word) : CauseReg :=
  if v.getLsbD 2 then CauseReg.clear else c

/-- The level of the interrupt output IRQ (R306). -/
def State.irq (s : State) : Bool :=
  (s.status.done && s.irqEn.doneIe) || (s.status.err && s.irqEn.errIe) ||
    (s.status.aborted && s.irqEn.abortIe)

end Sys2Proof.Machine
end

