-- ==== Sys2Proof/Machine/Ops.lean ====
section
/-! DEFINITION. The named operations every meaning is written over: reading and writing one register,
recording an error and raising one out of a command (the block's whole exception entry, R300, R303),
its acknowledgement (R308), acceptance and completion (R307), the abort latch (R276), the output port
(R86, R87) and the reset (R340). -/

namespace Sys2Proof.Machine

/-! ### Registers -/

/-- The register at a byte offset; offsets 0x3C to 0xFF are unmapped (R82). -/
def regAt (off : Byte) : Option Reg :=
  match off.toNat with
  | 0x00 => some .id
  | 0x04 => some .cmd
  | 0x08 => some .status
  | 0x0C => some .cause
  | 0x10 => some .irqEn
  | 0x14 => some .tc
  | 0x18 => some .rate
  | 0x1C => some .srate
  | 0x20 => some .amp
  | 0x24 => some .span
  | 0x28 => some .frames
  | 0x2C => some .enc
  | 0x30 => some .word0
  | 0x34 => some .word1
  | 0x38 => some .word2
  | _ => none

/-- The byte offset of a register (R82). -/
def offsetOf : Reg → Byte
  | .id => 0x00#8
  | .cmd => 0x04#8
  | .status => 0x08#8
  | .cause => 0x0C#8
  | .irqEn => 0x10#8
  | .tc => 0x14#8
  | .rate => 0x18#8
  | .srate => 0x1C#8
  | .amp => 0x20#8
  | .span => 0x24#8
  | .frames => 0x28#8
  | .enc => 0x2C#8
  | .word0 => 0x30#8
  | .word1 => 0x34#8
  | .word2 => 0x38#8

/-- The value a register reads, reserved bits 0 (R49). ID is a constant (R44) and CMD reads 0 (R45). -/
def readReg (r : Reg) (s : State) : Word :=
  match r with
  | .id => Config.idValue
  | .cmd => 0#32
  | .status => s.status.pack s.busy
  | .cause => s.cause.pack
  | .irqEn => s.irqEn.pack
  | .tc => s.tc.pack
  | .rate => (0#30 ++ s.rate.selector).cast rfl
  | .srate => s.srate
  | .amp => (0#17 ++ s.amp).cast rfl
  | .span => s.span
  | .frames => s.frames
  | .enc => s.enc.pack
  | .word0 => word0 s.word
  | .word1 => word1 s.word
  | .word2 => word2 s.word

/-- Host acknowledgement: a write to STATUS, write-1-to-clear (R46, R308). -/
def acknowledge (v : Word) (s : State) : State :=
  { s with status := s.status.clearOnes v, cause := s.cause.afterStatusWrite v }

/-- A write stores the defined bits of a register (R36 to R49). ID and CAUSE ignore it (R44, R47), CMD
holds no state (R45), and STATUS is write-1-to-clear (R46). A host write of ENC also sets the running
polarity, which equals ENC.POL while no command runs (R50 item 1). -/
def writeReg (r : Reg) (v : Word) (s : State) : State :=
  match r with
  | .id => s
  | .cmd => s
  | .status => acknowledge v s
  | .cause => s
  | .irqEn => { s with irqEn := IrqEnReg.unpack v }
  | .tc => { s with tc := TcReg.unpack v }
  | .rate => { s with rate := RateType.ofSelector (v.extractLsb' 0 2) }
  | .srate => { s with srate := v }
  | .amp => { s with amp := v.extractLsb' 0 15 }
  | .span => { s with span := v }
  | .frames => { s with frames := v }
  | .enc => { s with enc := EncReg.unpack v, runPol := (EncReg.unpack v).pol }
  | .word0 => { s with word := withWord0 s.word v }
  | .word1 => { s with word := withWord1 s.word v }
  | .word2 => { s with word := withWord2 s.word v }

/-! ### Errors and completion -/

/-- Recording an error: CAUSE takes the first one since ERR was last cleared; ERR is set (R303). -/
def record (c : CauseReg) (s : State) : State :=
  { s with
    cause := if s.status.err then s.cause else c
    status := { s.status with err := true } }

/-- An error of a register access: OP = 0, ACC = 1, OFFSET the access's offset (R302). -/
def recordAccess (code : Cause) (off : Byte) (s : State) : State :=
  record ⟨code, 0#4, true, off⟩ s

/-- An error of a command word: OP its bits 3:0, ACC = 0, OFFSET = 0 (R302). -/
def recordCommand (code : Cause) (op : BitVec 4) (s : State) : State :=
  record ⟨code, op, false, 0#8⟩ s

/-- Completion: BUSY <- 0 and DONE <- 1 in the same step (R307). -/
def complete (s : State) : State :=
  { s with running := none, status := { s.status with done := true } }

/-- `raise Fault(code)` out of command `i`: the error is recorded and the command ends (R12, R303,
R307). This is all the exception entry there is: no vector, no saved state, no mode (R300). -/
def raise (code : Cause) (i : Instr) (s : State) : State :=
  complete (recordCommand code i.op s)

/-- Acceptance of a command while BUSY = 0: BUSY <- 1 and the command runs (R112, R307). -/
def accept (i : Instr) (s : State) : State :=
  { s with running := some ⟨i, .start⟩ }

/-- The progress of command `i`: where it stands if it is the running command, else its start. -/
def phaseOf (i : Instr) (s : State) : Phase :=
  match s.running with
  | some r => if r.cmd = i then r.phase else .start
  | none => .start

/-- Command `i` runs on, at the progress `p`. -/
def setPhase (i : Instr) (p : Phase) (s : State) : State :=
  { s with running := some ⟨i, p⟩ }

/-- ABORT while a command runs: the abort latch is set if that command is GENERATE, else nothing
happens (R112, R276). -/
def requestAbort (s : State) : State :=
  match s.running with
  | some r => if r.cmd = .generate then { s with abortLatch := true } else s
  | none => s

/-! ### The sample output port -/

/-- The sample on the output port, if any (R50 item 4). -/
def State.port (s : State) : Option PortSample :=
  match s.running with
  | some ⟨_, .emit _ p⟩ => some p
  | _ => none

/-- SMP_VALID (R86). -/
def State.smpValid (s : State) : Bool := s.port.isSome

/-- The sink accepts the sample `p`: it is transferred once, in order (R87). -/
def transfer (p : PortSample) (s : State) : State :=
  { s with sent := p :: s.sent }

/-! ### Reset -/

/-- Every register and all internal state at its reset value (R52, R340). The pins, the schedule, and
what the sink and the host have received are the environment's and stay. -/
def resetBlock (s : State) : State :=
  { State.reset with
    smpReady := s.smpReady
    rst := s.rst
    schedule := s.schedule
    sent := s.sent
    reads := s.reads }

end Sys2Proof.Machine
end

