-- ==== Sys2Proof/Machine/Timecode.lean ====
section
/-! DEFINITION. The timecode arithmetic unit: validity (10_state.md R33), the carry chain with the
drop-frame rule (40_timecode_arith.md R161, R162) and ADVANCE (R160). -/

namespace Sys2Proof.Machine

/-- A timecode is valid for rate r (R33): at rate 1 frame 24 is, though R350 counts it among the frames a
change to rate 1 makes invalid (DEDUCED; log entry 24). -/
def Timecode.valid (t : Timecode) (r : RateType) : Bool :=
  decide (t.h ≤ 23) && decide (t.m ≤ 59) && decide (t.s ≤ 59) && decide (t.f ≤ r.div - 1)

/-- The frame number a new minute `m` begins with: at the drop-frame rate frames 0 and 1 are skipped
at a minute that is not a multiple of 10 (R162). -/
def firstFrame (m : Nat) (r : RateType) : Nat :=
  if r.dropFrame = true ∧ m % 10 ≠ 0 then 2 else 0

/-- The carry chain (R161). The new minute value, the one R162 tests, is the value after the wrap to
00. -/
def advance (t : Timecode) (r : RateType) : Timecode :=
  if t.f + 1 ≠ r.div then { t with f := t.f + 1 }
  else if t.s + 1 ≠ 60 then { t with s := t.s + 1, f := 0 }
  else if t.m + 1 ≠ 60 then ⟨t.h, t.m + 1, 0, firstFrame (t.m + 1) r⟩
  else ⟨(t.h + 1) % 24, 0, 0, firstFrame 0 r⟩

/-- TC is valid for RATE (R33). -/
def tcValid (s : State) : Bool := s.tc.value.valid s.rate

/-- `TC <- pack(advance(TC, RATE))` (R160). -/
def advanceTc (s : State) : State :=
  { s with tc := TcReg.ofTimecode (advance s.tc.value s.rate) }

/-- ADVANCE (R160). -/
def execAdvance (s : State) : Host.Outcome State Fault Refusal :=
  .next (if tcValid s then complete (advanceTc s) else raise .tcRange .advance s)

end Sys2Proof.Machine
end

