-- ==== Sys2Proof/Machine/WordBuild.lean ====
section
/-! DEFINITION. LTC word assembly (41_word_build.md R191 to R193), its field read-back (R196) and
BUILD (R190). -/

namespace Sys2Proof.Machine

/-- `W[k] <- b`. -/
def setBit (w : LtcWord) (k : Nat) (b : Bool) : LtcWord :=
  if b then w ||| BitVec.twoPow 80 k else w &&& ~~~(BitVec.twoPow 80 k)

/-- `put(W, p, n, v)`: write v LSB-first into positions p .. p+n-1 (R191). -/
def put (w : LtcWord) (p : Nat) : Nat → Nat → LtcWord
  | 0, _ => w
  | n + 1, v => setBit (put w p n v) (p + n) (v.testBit n)

/-- Write a list of bits into the positions from p on (R191, the sync loop). -/
def putBits (w : LtcWord) (p : Nat) : List Bool → LtcWord
  | [] => w
  | b :: bs => putBits (setBit w p b) (p + 1) bs

/-- The number of set bits among positions 0 .. n-1. -/
def popcountBelow (w : LtcWord) : Nat → Nat
  | 0 => 0
  | n + 1 => popcountBelow w n + (w.getLsbD n).toNat

/-- `popcount(W)` (R11). -/
def popcount (w : LtcWord) : Nat := popcountBelow w 80

/-- The word before its parity correction bit is chosen (R118, R191). -/
def wordFields (t : Timecode) (r : RateType) : LtcWord :=
  let w := put (put 0#80 0 4 (t.f % 10)) 8 2 (t.f / 10)
  let w := setBit w Config.dropFramePos r.dropFrame
  let w := put (put w 16 4 (t.s % 10)) 24 3 (t.s / 10)
  let w := put (put w 32 4 (t.m % 10)) 40 3 (t.m / 10)
  let w := put (put w 48 4 (t.h % 10)) 56 2 (t.h / 10)
  putBits w Config.syncPos Config.syncBits

/-- The assembled word: the fields, then W[27] chosen for an even number of set bits (R191, R193). -/
def buildWord (t : Timecode) (r : RateType) : LtcWord :=
  setBit (wordFields t r) Config.parityPos (decide (popcount (wordFields t r) % 2 = 1))

/-- `get(W, p, n)`: the sum over i < n of W[p + i] × 2^i (R196). -/
def get (w : LtcWord) (p : Nat) : Nat → Nat
  | 0 => 0
  | n + 1 => get w p n + (w.getLsbD (p + n)).toNat * 2 ^ n

/-- `decodeFields`: a word read back as a timecode and a drop-frame flag (R196). -/
def decodeFields (w : LtcWord) : Timecode × Bool :=
  (⟨get w 48 4 + 10 * get w 56 2, get w 32 4 + 10 * get w 40 3,
    get w 16 4 + 10 * get w 24 3, get w 0 4 + 10 * get w 8 2⟩, w.getLsbD 10)

/-- `WORD <- buildWord(TC, RATE)` (R190). It reads TC, as R190's operands and pseudocode say; R199 says
that BUILD does not read TC (DEDUCED; log entry 23). -/
def writeBuiltWord (s : State) : State :=
  { s with word := buildWord s.tc.value s.rate }

/-- BUILD (R190). -/
def execBuild (s : State) : Host.Outcome State Fault Refusal :=
  .next (if tcValid s then complete (writeBuiltWord s) else raise .tcRange .build s)

end Sys2Proof.Machine
end

