-- ==== Sys2Proof/Machine/Render.lean ====
section
/-! DEFINITION. Biphase-mark rendering (42_biphase_render.md R221 to R223), the emission of a frame
sample by sample under the port's handshake (20_memory.md R87), the span function (R228), and RENDER,
NEXTSPAN and SEGRESET (R220, R227, R232). -/

namespace Sys2Proof.Machine

/-! ### The rendering of a word, as R222 writes it -/

/-- Half-cell boundary: b(j) = (j × S + 80) div 160 (R221). -/
def boundary (S j : Nat) : Nat := (j * S + 80) / 160

/-- `sample(pol, A)`: +A or -A in 16-bit two's complement (R223). -/
def sampleValue (p : Polarity) (a : BitVec 15) : Sample :=
  match p with
  | .plus => a.setWidth 16
  | .minus => -(a.setWidth 16)

/-- The samples of half-cell j at polarity p; the frame's sample 0 carries the start-of-frame
marker (R221, R222, R233). -/
def halfCellSamples (S : Nat) (a : BitVec 15) (j : Nat) (p : Polarity) : List PortSample :=
  (List.range' (boundary S j) (boundary S (j + 1) - boundary S j)).map
    fun n => ⟨sampleValue p a, n == 0⟩

/-- Bits k, k+1, ... of the word, `count` of them, from the polarity p: the samples, and the exit
polarity (the loop body of R222). -/
def renderFrom (w : LtcWord) (S : Nat) (a : BitVec 15) : Nat → Nat → Polarity → List PortSample × Polarity
  | 0, _, p => ([], p)
  | count + 1, k, p =>
    let first := p.flip
    let second := if w.getLsbD k then first.flip else first
    let rest := renderFrom w S a count (k + 1) second
    (halfCellSamples S a (2 * k) first ++ (halfCellSamples S a (2 * k + 1) second ++ rest.1), rest.2)

/-- `render(W, S, A, pol)`: the frame's samples in the order emitted, and the exit polarity (R222). -/
def renderFrame (w : LtcWord) (S : Nat) (a : BitVec 15) (p : Polarity) : List PortSample × Polarity :=
  renderFrom w S a 80 0 p

/-! ### The same rendering, one sample at a time -/

/-- The half-cell that sample n of an S-sample frame lies in: the greatest j with b(j) <= n (R221). -/
def halfCellOf (S n : Nat) : Nat := (160 * n + 79) / S

/-- The running polarity on entering half-cell j: flipped at every cell start, and at the midpoint of
a 1 bit (R222). -/
def enterHalfCell (w : LtcWord) (j : Nat) (p : Polarity) : Polarity :=
  if j % 2 = 0 then p.flip else if w.getLsbD (j / 2) then p.flip else p

/-- The polarity of half-cell j of a frame entered at polarity p (R222). -/
def halfCellPolarity (w : LtcWord) (p : Polarity) : Nat → Polarity
  | 0 => enterHalfCell w 0 p
  | j + 1 => enterHalfCell w (j + 1) (halfCellPolarity w p j)

/-- The running polarity at sample n, from the one before it (R50 item 1, R222). -/
def polarityAt (w : LtcWord) (S n : Nat) (p : Polarity) : Polarity :=
  if n = boundary S (halfCellOf S n) then enterHalfCell w (halfCellOf S n) p else p

/-- Command `i` offers sample n of the frame on the output port: `Emit`, up to the handshake (R12,
R87, R222, R233). -/
def offer (i : Instr) (n : Nat) (s : State) : State :=
  let p := polarityAt s.word s.span.toNat n s.runPol
  setPhase i (.emit n ⟨sampleValue p s.amp, n == 0⟩) { s with runPol := p }

/-- A frame begins: the running polarity is the entry polarity ENC.POL, and sample 0 is offered
(R220, R272). -/
def beginEmission (i : Instr) (s : State) : State :=
  offer i 0 { s with runPol := s.enc.pol }

/-- One update of a frame being emitted, with sample n on the port. Without SMP_READY the block waits,
without limit (R87, R348). With it the sample transfers, and the next one is offered, or after the
last the frame waits for its end-of-frame commit (R91). -/
def emission (i : Instr) (n : Nat) (p : PortSample) (s : State) : State :=
  if s.smpReady then
    if n + 1 < s.span.toNat then offer i (n + 1) (transfer p s)
    else setPhase i .commit (transfer p s)
  else s

/-- `ENC.POL <- pol_out`, after the sink has accepted the last sample (R220, R272). -/
def commitPolarity (s : State) : State :=
  { s with enc := { s.enc with pol := s.runPol } }

/-! ### The span function -/

/-- Phase units of a frame at sample rate SR and rate r: SR × K(r) (R228). -/
def spanEnd (phase sr : Nat) (r : RateType) : Nat := phase + sr * r.period

/-- The frame's span: ROUND(X / L) - ROUND(A / L), with X = A + SR × K(r) (R228). The constant stands
first in each sum, as in `roundDiv`. -/
def spanOf (phase sr : Nat) (r : RateType) : Nat :=
  (Config.phaseDen / 2 + spanEnd phase sr r) / Config.phaseDen -
    (Config.phaseDen / 2 + phase) / Config.phaseDen

/-- The phase after the frame: A' = X mod L (R228). -/
def phaseAfter (phase sr : Nat) (r : RateType) : Nat := spanEnd phase sr r % Config.phaseDen

/-- The span of the next frame, from ENC.PHASE, SRATE and RATE (R227, R272). -/
def nextSpan (s : State) : Nat := spanOf s.enc.phase.toNat s.srate.toNat s.rate

/-- `(SPAN, ENC.PHASE) <- span(ENC.PHASE, SRATE, RATE)` (R227). -/
def writeSpan (s : State) : State :=
  { s with
    span := BitVec.ofNat 32 (nextSpan s)
    enc := { s.enc with phase := BitVec.ofNat 20 (phaseAfter s.enc.phase.toNat s.srate.toNat s.rate) } }

/-! ### The commands -/

/-- RENDER (R220, R226). -/
def execRender (s : State) : Host.Outcome State Fault Refusal :=
  .next (match phaseOf .render s with
    | .start =>
      if s.span.toNat < Config.minSpan then raise .spanShort .render s
      else beginEmission .render s
    | .emit n p => emission .render n p s
    | .commit => setPhase .render .finish (commitPolarity s)
    | .finish => complete s)

/-- NEXTSPAN (R227). It does not check the span against 160. -/
def execNextspan (s : State) : Host.Outcome State Fault Refusal :=
  .next (if s.srate = 0#32 then raise .srateZero .nextspan s else complete (writeSpan s))

/-- SEGRESET (R232, R53). The running polarity follows ENC.POL (R50 item 1). -/
def execSegreset (s : State) : Host.Outcome State Fault Refusal :=
  .next (complete { s with enc := EncReg.initial, runPol := Config.initPol })

end Sys2Proof.Machine
end

