-- ==== Sys2Proof/Machine/Sequencer.lean ====
section
/-! DEFINITION. Frame sequencing: the frame procedure (43_sequencer.md R272), and NOP, FRAME,
GENERATE and ABORT (R270, R271, R274, R276). -/

namespace Sys2Proof.Machine

/-- The checks of a frame, in their order: SRATE_ZERO, TC_RANGE, SPAN_SHORT (R272, R305). -/
def frameFault (s : State) : Option Cause :=
  if s.srate = 0#32 then some .srateZero
  else if tcValid s = false then some .tcRange
  else if nextSpan s < Config.minSpan then some .spanShort
  else none

/-- The start-of-frame commit, SPAN, ENC.PHASE and WORD together, and then the frame's first sample
is offered (R272, R273). -/
def beginFrame (i : Instr) (s : State) : State :=
  beginEmission i (writeBuiltWord (writeSpan s))

/-- The end-of-frame commit of ENC.POL and TC (R272, R273). -/
def endFrame (s : State) : State := advanceTc (commitPolarity s)

/-- The same commit under GENERATE, which counts the frame with it (R275). -/
def endGeneratedFrame (s : State) : State :=
  { endFrame s with frames := s.frames - 1#32 }

/-- GENERATE's completion clears the abort latch (R50 item 2, R275). -/
def clearAbort (s : State) : State := { s with abortLatch := false }

/-- The frame boundary of GENERATE, after an end-of-frame commit (R275): it completes when no frame is
left, stops with ABORTED when the abort latch is set and frames are left, and else goes on. -/
def frameBoundary (s : State) : State :=
  if s.frames = 0#32 then complete (clearAbort s)
  else if s.abortLatch then
    complete (clearAbort { s with status := { s.status with aborted := true } })
  else setPhase .generate .start s

/-- The sample stream of the source's generateSequence, as R277 describes it: frame after frame, each
with its own span and word, the encoder state carried from one to the next. -/
def sequenceSamples (sr : Nat) (a : BitVec 15) (r : RateType) :
    Nat → Timecode → Nat → Polarity → List PortSample
  | 0, _, _, _ => []
  | n + 1, t, phase, p =>
    let f := renderFrame (buildWord t r) (spanOf phase sr r) a p
    f.1 ++ sequenceSamples sr a r n (advance t r) (phaseAfter phase sr r) f.2

/-- NOP (R270). -/
def execNop (s : State) : Host.Outcome State Fault Refusal :=
  .next (complete s)

/-- FRAME (R271, R272). -/
def execFrame (s : State) : Host.Outcome State Fault Refusal :=
  .next (match phaseOf .frame s with
    | .start =>
      match frameFault s with
      | some c => raise c .frame s
      | none => beginFrame .frame s
    | .emit n p => emission .frame n p s
    | .commit => setPhase .frame .finish (endFrame s)
    | .finish => complete s)

/-- GENERATE (R274, R275). -/
def execGenerate (s : State) : Host.Outcome State Fault Refusal :=
  .next (match phaseOf .generate s with
    | .start =>
      if s.frames = 0#32 then complete (clearAbort s)
      else
        match frameFault s with
        | some c => raise c .generate (clearAbort s)
        | none => beginFrame .generate s
    | .emit n p => emission .generate n p s
    | .commit => setPhase .generate .finish (endGeneratedFrame s)
    | .finish => frameBoundary s)

/-- ABORT (R276): while another command runs, the abort latch is set if that command is GENERATE and
nothing happens if it is not; otherwise ABORT completes at once. -/
def execAbort (s : State) : Host.Outcome State Fault Refusal :=
  .next (match s.running with
    | some r => if r.cmd = .abort then complete s else requestAbort s
    | none => complete s)

end Sys2Proof.Machine
end

