-- ==== Sys2Proof/Machine/Dispatch.lean ====
section
/-! DEFINITION. One arm per command: the meaning of each (30_encoding.md R111). -/

namespace Sys2Proof.Machine

-- The block's own next update of a running command; the first one, when the command has just been accepted.
def exec (i : Instr) (s : State) : Host.Outcome State Fault Refusal :=
  match i with
  | .nop => Sys2Proof.Machine.execNop s
  | .advance => Sys2Proof.Machine.execAdvance s
  | .build => Sys2Proof.Machine.execBuild s
  | .nextspan => Sys2Proof.Machine.execNextspan s
  | .render => Sys2Proof.Machine.execRender s
  | .frame => Sys2Proof.Machine.execFrame s
  | .generate => Sys2Proof.Machine.execGenerate s
  | .segreset => Sys2Proof.Machine.execSegreset s
  | .abort => Sys2Proof.Machine.execAbort s

end Sys2Proof.Machine
end

