-- ==== Sys2Proof/Machine/Bus.lean ====
section
/-! DEFINITION. The register window: BusRead and BusWrite (20_memory.md R82, R83), the issue of a
command (30_encoding.md R112), and the expansion of a host program's lines (R117). -/

namespace Sys2Proof.Machine

/-- What a host access leads to. -/
inductive AccessResult where
  /-- The access is finished and has started nothing. -/
  | done (s : State)
  /-- The access was a write to CMD that the block accepted as command `i`. -/
  | accepted (i : Instr) (s : State)

/-- The register an access of a width at an offset names: none for a bad access, one that is not 32
bits wide, misaligned or unmapped (R83). -/
def admitted (off : Byte) (width : Nat) : Option Reg :=
  if width = 32 ∧ off.toNat % 4 = 0 then regAt off else none

/-- `BusRead(off)`: the value returned, and the state after (R82, R85). -/
def busRead (off : Byte) (width : Nat) (s : State) : Word × State :=
  match admitted off width with
  | none => (0#32, recordAccess .badAccess off s)
  | some r => (readReg r s, s)

/-- `issue(v)`: a write of word v to CMD (R112, R113). BUSY is checked before decoding. -/
def issue (v : Word) (s : State) : AccessResult :=
  if s.busy then
    if v = encode .abort then .done (requestAbort s)
    else .done (recordCommand .busy (opField v) s)
  else
    match decode v with
    | .reject _ => .done (complete (recordCommand .illegalCmd (opField v) s))
    | .command i => .accepted i (accept i s)

/-- An admitted write to a register other than CMD: a write to ID or CAUSE is ignored, STATUS is
write-1-to-clear, a guarded register is refused while BUSY = 1, a PHASE of L or more is refused whole
(R82, R93, R305). -/
def storeReg (r : Reg) (off : Byte) (v : Word) (s : State) : State :=
  match r with
  | .id | .cause => s
  | .status => acknowledge v s
  | .irqEn => writeReg .irqEn v s
  | _ =>
    if s.busy then recordAccess .busy off s
    else if r = .enc ∧ Config.phaseDen ≤ (v.extractLsb' 0 20).toNat then
      recordAccess .phaseRange off s
    else writeReg r v s

/-- `BusWrite(off, v)` (R82). -/
def busWrite (off : Byte) (width : Nat) (v : Word) (s : State) : AccessResult :=
  match admitted off width with
  | none => .done (recordAccess .badAccess off s)
  | some .cmd => issue v s
  | some r => .done (storeReg r off v s)

/-- A read the host makes, with the value it gets. Reads are accepted at any time (R54), also while RST
is high; the error of a bad one leaves nothing then, because the registers hold their reset values (R340;
log entry 7). -/
def hostRead (off : Byte) (width : Nat) (s : State) : State :=
  let r := busRead off width s
  let t := if s.rst then s else r.2
  { t with reads := r.1 :: t.reads }

/-- One host access (R81). A read is accepted at any time (R54). A write while RST is high changes
nothing: the registers hold their reset values (R340) and no command is accepted (R341; log entry 7). -/
def hostAccess (a : Access) (s : State) : AccessResult :=
  match a with
  | .read off width => .done (hostRead off width s)
  | .write off width v => if s.rst then .done s else busWrite off width v s

/-! ### Host programs -/

/-- The byte offset a line of a host program names (R82, R117). -/
def targetOffset : Target → Byte
  | .reg r => offsetOf r
  | .offset off => off

/-- `WR reg, v` as a turn of the host. -/
def writeTurn (r : Reg) (v : Word) : Turn := .host (.write (offsetOf r) 32 v)

/-- A command as a turn of the host: `WR CMD, word` (R117). -/
def commandTurn (i : Instr) : Turn := writeTurn .cmd (encode i)

/-- `SETTC hh:mm:ss:ff` as a turn of the host: a write of pack(hh, mm, ss, ff) to TC, which takes the low
bits of each field (R116, R117). -/
def settcTurn (h m s f : Nat) : Turn :=
  writeTurn .tc (TcReg.ofTimecode ⟨h, m, s, f⟩).pack

/-- The expansion of a line of a host program (R117): the host's accesses, and no turn of the block after a
command. So where no WAIT follows, as between SEGRESET and GENERATE in R277, the next access meets BUSY = 1
and a second command is dropped; LATENCY is OPEN, and this is one order among those it allows (DESIGN CHOICE,
log entry 26). `expandPaced` is the other. -/
def expand : HostLine → List Turn
  | .wr t v => [.host (.write (targetOffset t) 32 (BitVec.ofNat 32 v))]
  | .rd t => [.host (.read (targetOffset t) 32)]
  | .cmd i => [commandTurn i]
  | .settc h m s f => [settcTurn h m s f]
  | .wait => [.wait]
  | .clrst => [writeTurn .status 0x0000000E#32]
  | .genseq h m s f r n =>
    [settcTurn h m s f, writeTurn .rate (BitVec.ofNat 32 r), writeTurn .frames (BitVec.ofNat 32 n),
      commandTurn .segreset, .wait, commandTurn .generate, .wait]

/-- A whole host program, its accesses one right after the other (DESIGN CHOICE, log entry 26). -/
def expandProgram (p : List HostLine) : List Turn := p.flatMap expand

/-- A whole host program in which a command completes before the next host access, as in the runs of
95_test_vectors.md Part 3 and of R277: the host polls until BUSY = 0 after each command line. The poll is
the model's stand-in for the host being slow enough; it changes nothing in the block (R85; DESIGN CHOICE, log
entry 26). -/
def expandPaced (p : List HostLine) : List Turn :=
  p.flatMap fun l =>
    match l with
    | .cmd i => [commandTurn i, .wait]
    | l => expand l

end Sys2Proof.Machine
end

