-- ==== Sys2Proof/Machine/Environment.lean ====
section
/-! DEFINITION. The turns of the environment other than a host access: the sink's and the platform's
pins (20_memory.md R86, 70_reset_and_hazards.md R340), and the order of turns around the acceptance of
a command (log entries 1 and 2). -/

namespace Sys2Proof.Machine

/-- The rest of the schedule. -/
def popTurn (s : State) : State := { s with schedule := s.schedule.tail }

/-- The sink drives SMP_READY (R86). -/
def sinkTurn (ready : Bool) (s : State) : State := { s with smpReady := ready }

/-- The platform drives RST: every register and all internal state take their reset values while RST
is high and at the edge where it falls (R340). Driving a low RST low changes nothing. -/
def rstTurn (level : Bool) (s : State) : State :=
  if level || s.rst then { resetBlock s with rst := level } else s

/-- The host's poll that ends a WAIT: it reads STATUS (R117). It is a read like any other, so a WAIT met
while RST is high ends too, with the STATUS value the block in reset gives (R54; DEDUCED, log entries 7 and
11). -/
def pollStatus (s : State) : State := hostRead (offsetOf .status) 32 s

/-- Whether the block's own update is what comes next in a schedule: it is when the block is given the
turn, when the host only polls, and when the schedule has run out. -/
def coreIsNext : List Turn → Bool
  | [] => true
  | .core :: _ => true
  | .wait :: _ => true
  | .host _ :: _ => false
  | .sink _ :: _ => false
  | .rst _ :: _ => false

/-- The schedule after the block's own update has been made: a turn given to the block is used up. -/
def useCoreTurn (s : State) : State :=
  match s.schedule with
  | .core :: rest => { s with schedule := rest }
  | _ => s

end Sys2Proof.Machine
end

