-- ==== Sys2Proof/Machine/Step.lean ====
section
/-! DEFINITION. One step: one entry of the one global order of host accesses and block updates
(20_memory.md R90). -/

namespace Sys2Proof.Machine

/-- The block's own turn: the running command makes its next update; an idle block, and one held in
reset, changes nothing (R280, R315, R340). -/
def coreStep (s : State) : Host.Outcome State Fault Refusal :=
  if s.rst then .next s
  else
    match s.running with
    | none => .next s
    | some r => exec r.cmd s

/-- A host access. Where it issues a command and the block's own turn comes right after, the command's
first update is made in the same step (R112; log entry 2). -/
def hostStep (a : Access) (s : State) : Host.Outcome State Fault Refusal :=
  match hostAccess a s with
  | .done t => .next t
  | .accepted i t => if coreIsNext t.schedule then exec i (useCoreTurn t) else .next t

/-- One step of the machine: the turn that comes first in the schedule, or the block's own when the
schedule is empty. -/
def step (s : State) : Host.Outcome State Fault Refusal :=
  match s.schedule with
  | [] => coreStep s
  | .core :: _ => coreStep (popTurn s)
  | .wait :: _ => if s.busy then coreStep s else .next (pollStatus (popTurn s))
  | .sink ready :: _ => .next (sinkTurn ready (popTurn s))
  | .rst level :: _ => .next (rstTurn level (popTurn s))
  | .host a :: _ => hostStep a (popTurn s)

/-- The state in which the host is about to write the word `w` to CMD and the block then has its turn:
the block fetches nothing, and a command reaches it only so (R32, R45). The block is out of reset and
idle, which the acceptance of a command needs (R112, R341). -/
def State.withFetchWord (s : State) (nbits w : Nat) : State :=
  { s with
    running := none
    rst := false
    schedule := writeTurn .cmd (BitVec.ofNat 32 (w % 2 ^ nbits)) :: .core :: s.schedule }

end Sys2Proof.Machine
end

