-- ==== Sys2Proof/Safety.lean ====
section
/-! DEFINITION. What counts as a safe state: the facts the spec states of every state a run can be in,
as one invariant. -/

namespace Sys2Proof.Machine

/-- The commands that emit samples (R220, R271, R274). -/
def emits : Instr → Bool
  | .render => true
  | .frame => true
  | .generate => true
  | .nop => false
  | .advance => false
  | .build => false
  | .nextspan => false
  | .segreset => false
  | .abort => false

/-- Command `i` is emitting the frame the registers describe: the span is renderable (R226); for FRAME
and GENERATE the timecode is valid and the word is the one built from it (R272); and GENERATE still
counts the frame (R275). -/
structure FrameHeld (i : Instr) (s : State) : Prop where
  emits : emits i = true
  span : Config.minSpan ≤ s.span.toNat
  timecode : i ≠ .render → tcValid s = true
  word : i ≠ .render → s.word = buildWord s.tc.value s.rate
  frames : i = .generate → s.frames ≠ 0#32

/-- The running polarity and the sample on the port fit the progress of the running command: the
running polarity equals ENC.POL while BUSY = 0 and outside a frame, and inside a frame it is that of
the half-cell the next sample lies in (R50, R222). -/
def ProgressOk (s : State) : Prop :=
  match s.running with
  | none => s.runPol = s.enc.pol
  | some ⟨_, .start⟩ => s.runPol = s.enc.pol
  | some ⟨i, .emit n p⟩ =>
    FrameHeld i s ∧ n < s.span.toNat ∧
      s.runPol = halfCellPolarity s.word s.enc.pol (halfCellOf s.span.toNat n) ∧
      p = ⟨sampleValue s.runPol s.amp, n == 0⟩
  | some ⟨i, .commit⟩ => FrameHeld i s ∧ s.runPol = halfCellPolarity s.word s.enc.pol 159
  | some ⟨i, .finish⟩ => emits i = true ∧ s.runPol = s.enc.pol

/-- The invariant of the block. -/
structure Inv (s : State) : Prop where
  /-- PHASE is a fraction of a sample: 0 <= PHASE <= L - 1 (R42). -/
  phase : s.enc.phase.toNat < Config.phaseDen
  /-- CAUSE is 0 while ERR is clear (R46, R47, R303). -/
  causeClear : s.status.err = false → s.cause = CauseReg.clear
  /-- ERR is set only with a cause (R303). -/
  causeSet : s.status.err = true → s.cause.code ≠ .none
  /-- The abort latch is set only while GENERATE runs (R50 item 2). -/
  abort : s.abortLatch = true → s.running.map Running.cmd = some .generate
  /-- While RST is high the block holds its reset values (R340). -/
  reset : s.rst = true → s = resetBlock s
  /-- R50 items 1, 3 and 4. -/
  progress : ProgressOk s

end Sys2Proof.Machine
end

