-- ==== Sys2Proof/WellFormed.lean ====
section
/-! DEFINITION. Which terms of the syntax stand for something the block can be given. A command has
no operand fields (R110), so every command is well formed; the checks with content are those on the
command word, on a bus access and on the lines of a host program. -/

namespace Sys2Proof

/-- Every command is well formed: it has no field that could be out of range (R110). -/
def Instr.wellFormed : Instr → Bool
  | .nop | .advance | .build | .nextspan | .render | .frame | .generate | .segreset | .abort => true

/-- A legal command word: bits 31:4 are 0 and OP is one of the nine opcodes (R110, R113). -/
def wellFormedCommandWord (v : Word) : Bool :=
  v.extractLsb' 4 28 == 0#28 && decide ((v.extractLsb' 0 4).toNat < 9)

/-- An access the window admits: 32 bits wide, at a multiple of 4, below 0x3C (R82, R83). -/
def Access.wellFormed : Access → Bool
  | .read off width => width == 32 && decide (off.toNat % 4 = 0) && decide (off.toNat < 0x3C)
  | .write off width _ => width == 32 && decide (off.toNat % 4 = 0) && decide (off.toNat < 0x3C)

/-- The operand hh:mm:ss:ff: four fields of two decimal digits (R13, R117; log entry 25). A field wider
than its place in TC is no error here: pack selects its low bits (R116). -/
def wellFormedTcFields (h m s f : Nat) : Bool :=
  decide (h < 100) && decide (m < 100) && decide (s < 100) && decide (f < 100)

/-- A line of a host program: its timecode operand is well formed, and the values it writes are 32 bits
wide (R82, R117; log entry 25). -/
def HostLine.wellFormed : HostLine → Bool
  | .wr _ v => decide (v < 2 ^ 32)
  | .rd _ => true
  | .cmd i => i.wellFormed
  | .settc h m s f => wellFormedTcFields h m s f
  | .wait => true
  | .clrst => true
  | .genseq h m s f r n => wellFormedTcFields h m s f && decide (r < 2 ^ 32) && decide (n < 2 ^ 32)

end Sys2Proof
end

