-- ==== Sys2Proof/Certificates/Slice0/Obligations.lean ====
section
/-! DEFINITION. The statements for the provers. Each docstring names the rule of spec/ it formalises.
A statement that gives a next state as `{ s with … }` is its own frame: every field not named is
unchanged. The block has no memory (R80), so a frame has no memory part. -/

namespace Sys2Proof.Statements

open Sys2Proof.Machine

/-- `s` after an error with the cause `c` is recorded: CAUSE keeps an earlier one, ERR is set (R303). -/
def withError (c : CauseReg) (s : State) : State :=
  { s with
    cause := if s.status.err then s.cause else c
    status := ⟨s.status.done, true, s.status.aborted⟩ }

/-- `s` after its command has ended: BUSY = 0 and DONE = 1 (R307). -/
def ended (s : State) : State :=
  { s with running := none, status := ⟨true, s.status.err, s.status.aborted⟩ }

/-- `s` after command `i` has ended with the error `code` (R302): OP its opcode, ACC and OFFSET 0. -/
def endedWith (code : Cause) (i : Instr) (s : State) : State :=
  ended (withError ⟨code, (encode i).extractLsb' 0 4, false, 0#8⟩ s)

/-- `s` when the next turn is the host's, making the access `a`, with `rest` to follow. -/
def hostTurn (a : Access) (rest : List Turn) (s : State) : State :=
  { s with schedule := .host a :: rest }

/-- A 32-bit write of `v` at the offset `off`. -/
def write32 (off : Byte) (v : Word) : Access := .write off 32 v

/-- The register map of R82: fifteen offsets and their registers. -/
def registerMap : List (Byte × Reg) :=
  [(0x00#8, .id), (0x04#8, .cmd), (0x08#8, .status), (0x0C#8, .cause), (0x10#8, .irqEn), (0x14#8, .tc),
    (0x18#8, .rate), (0x1C#8, .srate), (0x20#8, .amp), (0x24#8, .span), (0x28#8, .frames),
    (0x2C#8, .enc), (0x30#8, .word0), (0x34#8, .word1), (0x38#8, .word2)]

/-- The reserved bits of each register: those outside the fields of R36 to R43 and R46 to R48, and bits
31:4 of CMD (R110). ID is a constant and has none (R44). -/
def reservedBits : Reg → Word
  | .id | .srate | .span | .frames | .word0 | .word1 => 0x00000000#32
  | .cmd | .status => 0xFFFFFFF0#32
  | .cause => 0xFF00FE00#32
  | .irqEn => 0xFFFFFFF1#32
  | .tc => 0xE0C0C0E0#32
  | .rate => 0xFFFFFFFC#32
  | .amp => 0xFFFF8000#32
  | .enc => 0x7FF00000#32
  | .word2 => 0xFFFF0000#32

/-- The codes of R301. -/
def causeNumber : Cause → Nat
  | .none => 0
  | .illegalCmd => 1
  | .busy => 2
  | .tcRange => 3
  | .srateZero => 4
  | .spanShort => 5
  | .phaseRange => 6
  | .badAccess => 7

/-- The selectors of R115. -/
def rateNumber : RateType → Nat
  | .fps24 => 0
  | .fps25 => 1
  | .fps2997 => 2
  | .fps30 => 3

/-- The registers a host may not write while BUSY = 1 (R54, R93). -/
def guarded : List Reg :=
  [.tc, .rate, .srate, .amp, .span, .frames, .enc, .word0, .word1, .word2]

/-- One advance at rate `r` (R161). -/
def tick (r : RateType) (t : Timecode) : Timecode := advance t r

/-- The timecode 00:00:00:00. -/
def midnight : Timecode := ⟨0, 0, 0, 0⟩

/-- The frames of a day: 24 × 86400, 25 × 86400 and 30 × 86400, and at the drop-frame rate 2,592,000
less 2 for each of 54 minutes an hour (R165, R166). -/
def framesPerDay : RateType → Nat
  | .fps24 => 2073600
  | .fps25 => 2160000
  | .fps2997 => 2589408
  | .fps30 => 2592000

/-- The phase before frame `i` of a segment that starts with PHASE = 0 (R229). -/
def segmentPhase (sr : Nat) (r : RateType) (i : Nat) : Nat :=
  (fun a => phaseAfter a sr r)^[i] 0

/-- The span of frame `i` of a segment that starts with PHASE = 0 (R229). -/
def segmentSpan (sr : Nat) (r : RateType) (i : Nat) : Nat := spanOf (segmentPhase sr r i) sr r

/-- ROUND(n × SR / EXACT(r)) (R229, R230). -/
def idealSamples (sr : Nat) (r : RateType) (n : Nat) : Nat :=
  roundDiv (n * sr * r.exactDen) r.exactNum

/-- The polarity before half-cell j of a frame entered at polarity p: p itself before the first, and
else that of the half-cell before it (R222). -/
def levelBefore (w : LtcWord) (p : Polarity) : Nat → Polarity
  | 0 => p
  | j + 1 => halfCellPolarity w p j

/-- The transitions of a frame: the half-cells whose polarity differs from the one before (R225). -/
def transitions (w : LtcWord) (p : Polarity) : Nat :=
  (List.range 160).countP fun j => decide (halfCellPolarity w p j ≠ levelBefore w p j)

/-- `s` with no error recorded, as after the host has cleared ERR (R308). -/
def withoutError (s : State) : State :=
  { s with cause := CauseReg.clear, status := ⟨s.status.done, false, s.status.aborted⟩ }

/-- Idle, out of reset, with a sink that accepts every sample and nothing else scheduled. -/
structure IdleReady (s : State) : Prop where
  idle : s.running = none
  notReset : s.rst = false
  ready : s.smpReady = true
  free : s.schedule = []

end Sys2Proof.Statements

open Sys2Proof Sys2Proof.Machine Sys2Proof.Statements

/-! ### Encoding -/

/-- R111: the word of each row of the opcode map decodes to that row's command. -/
def Obligations.DecodeReadsEachTableWord : Prop :=
  decode 0x00000000#32 = .command .nop ∧ decode 0x00000001#32 = .command .advance ∧
  decode 0x00000002#32 = .command .build ∧ decode 0x00000003#32 = .command .nextspan ∧
  decode 0x00000004#32 = .command .render ∧ decode 0x00000005#32 = .command .frame ∧
  decode 0x00000006#32 = .command .generate ∧ decode 0x00000007#32 = .command .segreset ∧
  decode 0x00000008#32 = .command .abort

/-- R110, R111: decoding and encoding are inverse to each other on all 2^32 words, as words and as the
four bytes the bus presents (R84): a word decodes to a command exactly when it is that command's. -/
def Obligations.DecodeInvertsEncode : Prop :=
  ∀ (v : Word) (i : Instr), (decode v = .command i ↔ encode i = v) ∧
    (decodeBytes (lanes v) = .command i ↔ encode i = v)

/-- R110, R113: a word with a nonzero bit in 31:4, or with OP in 0x9 to 0xF, is no command, and the
decoder says which; every other word is one. -/
def Obligations.DecodeRejectsReservedWords : Prop :=
  ∀ v : Word,
    (v.toNat / 16 ≠ 0 → decode v = .reject .reservedBits) ∧
    (9 ≤ v.toNat → v.toNat < 16 → decode v = .reject .reservedOpcode) ∧
    (v.toNat < 9 → ∃ i, decode v = .command i ∧ wellFormedCommandWord v = true)

/-! ### Issue of a command, and the block's own turn -/

/-- R112, R307: a command written while BUSY = 0 is accepted: BUSY becomes 1 and nothing else changes,
while the block does not have the next turn (that turn order is log entries 1 and 2). -/
def Obligations.CmdWriteAcceptsLegalCommand : Prop :=
  ∀ (s : State) (i : Instr) (rest : List Turn), s.rst = false → s.running = none →
    coreIsNext rest = false →
    step (hostTurn (write32 0x04#8 (encode i)) rest s) =
      .next { s with schedule := rest, running := some ⟨i, .start⟩ }

/-- R112: a step that takes a command from CMD runs it. When the word the host writes decodes to the
command `i`, the step is `exec i` of the accepted state, wherever the block has the turn after it: in
particular for the state `withFetchWord` makes. That acceptance and first update are one step there is
the model's choice (log entries 2 and 12). -/
def Obligations.StepRunsDecodedCommand : Prop :=
  ∀ (s : State) (v : Word) (i : Instr) (rest : List Turn), decode v = .command i →
    (s.rst = false → s.running = none →
      (step (hostTurn (write32 0x04#8 v) [] s) =
        exec i { s with schedule := [], running := some ⟨i, .start⟩ }) ∧
      (step (hostTurn (write32 0x04#8 v) (.core :: rest) s) =
        exec i { s with schedule := rest, running := some ⟨i, .start⟩ }) ∧
      (step (hostTurn (write32 0x04#8 v) (.wait :: rest) s) =
        exec i { s with schedule := .wait :: rest, running := some ⟨i, .start⟩ })) ∧
    (step (s.withFetchWord 32 v.toNat) =
      exec i { s with rst := false, running := some ⟨i, .start⟩ })

/-- R90, R117: at the block's own turn the running command makes its next update; so it does while
the host polls. The turns are the model's form of the one global order (log entries 1 and 11). -/
def Obligations.CoreTurnRunsRunningCommand : Prop :=
  ∀ (s : State) (i : Instr) (p : Phase) (rest : List Turn), s.rst = false →
    s.running = some ⟨i, p⟩ →
    (s.schedule = [] → step s = exec i s) ∧
    (s.schedule = .core :: rest → step s = exec i { s with schedule := rest }) ∧
    (s.schedule = .wait :: rest → step s = exec i s)

/-- R113: an illegal word raises ILLEGAL_CMD when the block is not busy and changes nothing else (it
sets DONE, R112), and the only word that is a no-op is 0x00000000. -/
def Obligations.IllegalWordRaisesIllegalCmd : Prop :=
  ∀ (s : State) (v : Word) (rest : List Turn), s.rst = false → s.running = none →
    ((v.extractLsb' 4 28 ≠ 0#28 ∨ 9 ≤ (v.extractLsb' 0 4).toNat) →
      step (hostTurn (write32 0x04#8 v) rest s) =
        .next { ended (withError ⟨.illegalCmd, v.extractLsb' 0 4, false, 0#8⟩ s) with
          schedule := rest }) ∧
    (decode v = .command .nop ↔ v = 0x00000000#32)

/-- R112, R276: while a command runs, the word 0x00000008 sets the abort latch if that command is
GENERATE and else changes nothing; the running command goes on. -/
def Obligations.AbortWordWhileBusy : Prop :=
  ∀ (s : State) (i : Instr) (p : Phase) (rest : List Turn), s.rst = false →
    s.running = some ⟨i, p⟩ →
    step (hostTurn (write32 0x04#8 0x00000008#32) rest s) =
      .next { s with schedule := rest, abortLatch := s.abortLatch || decide (i = .generate) }

/-! ### The register window -/

/-- R83: an access that is not 32 bits wide, is misaligned or is at or above 0x3C records BAD_ACCESS
with ACC = 1 and OFFSET the offset; a read returns 0, a write changes nothing. -/
def Obligations.BadAccessRecordsBadAccess : Prop :=
  ∀ (s : State) (off : Byte) (width : Nat) (v : Word) (rest : List Turn), s.rst = false →
    (width ≠ 32 ∨ off.toNat % 4 ≠ 0 ∨ 0x3C ≤ off.toNat) →
    step (hostTurn (.write off width v) rest s) =
      .next { withError ⟨.badAccess, 0#4, true, off⟩ s with schedule := rest } ∧
    step (hostTurn (.read off width) rest s) =
      .next { withError ⟨.badAccess, 0#4, true, off⟩ s with
        schedule := rest, reads := 0#32 :: s.reads }

/-- R82, R85, R54: a 32-bit read at each of the fifteen offsets of the register map returns the value of
the register that stands there and has no side effect on any register, at any time: whether or not a
command runs, and whether or not RST is high (the latter is log entry 7); `offsetOf`, by which other
statements address a register, gives these offsets; and the poll that ends a WAIT (R117) is a read of
STATUS, at any time too (log entry 11). -/
def Obligations.ReadReturnsRegisterWithoutSideEffect : Prop :=
  ∀ (s : State) (rest : List Turn),
    (∀ (off : Byte) (r : Reg), (off, r) ∈ registerMap →
      offsetOf r = off ∧
      step (hostTurn (.read off 32) rest s) =
        .next { s with schedule := rest, reads := readReg r s :: s.reads }) ∧
    (s.running = none → step { s with schedule := .wait :: rest } =
      .next { s with schedule := rest, reads := readReg .status s :: s.reads })

/-- R36 to R48: where the fields of each register stand in the 32 bits it reads; with the cause codes of
R301 and the rate selectors of R115 as numbers. -/
def Obligations.RegisterFieldsStandWhereTheSpecPutsThem : Prop :=
  ∀ s : State,
    (readReg .id s).toNat = 0x4C544301 ∧
    (readReg .cmd s).toNat = 0 ∧
    (readReg .status s).toNat = s.running.isSome.toNat + 2 * s.status.done.toNat +
      4 * s.status.err.toNat + 8 * s.status.aborted.toNat ∧
    (readReg .cause s).toNat = causeNumber s.cause.code + 2 ^ 4 * s.cause.op.toNat +
      2 ^ 8 * s.cause.acc.toNat + 2 ^ 16 * s.cause.offset.toNat ∧
    (readReg .irqEn s).toNat = 2 * s.irqEn.doneIe.toNat + 4 * s.irqEn.errIe.toNat +
      8 * s.irqEn.abortIe.toNat ∧
    (readReg .tc s).toNat = s.tc.frame.toNat + 2 ^ 8 * s.tc.sec.toNat + 2 ^ 16 * s.tc.min.toNat +
      2 ^ 24 * s.tc.hour.toNat ∧
    (readReg .rate s).toNat = rateNumber s.rate ∧
    readReg .srate s = s.srate ∧ readReg .span s = s.span ∧ readReg .frames s = s.frames ∧
    (readReg .amp s).toNat = s.amp.toNat ∧
    (readReg .enc s).toNat = s.enc.phase.toNat + 2 ^ 31 * s.enc.pol.bit.toNat ∧
    (readReg .word0 s).toNat + 2 ^ 32 * (readReg .word1 s).toNat +
      2 ^ 64 * (readReg .word2 s).toNat = s.word.toNat

/-- R49: a reserved bit reads 0 and ignores what is written to it, and a write that sets one is no
error; the exception is CMD, where one makes the command illegal. The reserved bits are written out. -/
def Obligations.ReservedBitsReadZeroAndIgnoreWrites : Prop :=
  ∀ (s : State) (r : Reg) (v : Word) (rest : List Turn), s.rst = false →
    readReg r s &&& reservedBits r = 0#32 ∧
    (r ≠ .cmd →
      step (hostTurn (write32 (offsetOf r) v) rest s) =
        step (hostTurn (write32 (offsetOf r) (v &&& ~~~(reservedBits r))) rest s)) ∧
    (s.running = none → v &&& reservedBits .cmd ≠ 0#32 →
      step (hostTurn (write32 (offsetOf .cmd) v) rest s) =
        .next { ended (withError ⟨.illegalCmd, v.extractLsb' 0 4, false, 0#8⟩ s) with
          schedule := rest })

/-- R82, R54: an accepted write of a read-write register stores the defined bits of the value, which
the register then reads, and changes what no other register reads; no error, no command. -/
def Obligations.WriteThenReadReturnsDefinedBits : Prop :=
  ∀ (s : State) (r : Reg) (v : Word) (rest : List Turn), s.rst = false →
    (r = .irqEn ∨ (r ∈ guarded ∧ s.running = none)) →
    (r = .enc → (v.extractLsb' 0 20).toNat < 599400) →
    ∃ t, step (hostTurn (write32 (offsetOf r) v) rest s) = .next t ∧
      readReg r t = v &&& ~~~(reservedBits r) ∧
      (∀ q, q ≠ r → readReg q t = readReg q s) ∧
      t.running = s.running ∧ t.abortLatch = s.abortLatch ∧ t.sent = s.sent ∧ t.reads = s.reads ∧
      t.schedule = rest

/-- R93: while BUSY = 1 a write to a guarded register is dropped and records BUSY with ACC = 1, a
write to CMD of any word but 0x00000008 is dropped and records BUSY with ACC = 0, and writes to STATUS
and IRQ_EN are performed. -/
def Obligations.WritesWhileBusy : Prop :=
  ∀ (s : State) (i : Instr) (p : Phase) (v : Word) (rest : List Turn), s.rst = false →
    s.running = some ⟨i, p⟩ →
    (∀ r ∈ guarded, step (hostTurn (write32 (offsetOf r) v) rest s) =
      .next { withError ⟨.busy, 0#4, true, offsetOf r⟩ s with schedule := rest }) ∧
    (v ≠ 0x00000008#32 → step (hostTurn (write32 (offsetOf .cmd) v) rest s) =
      .next { withError ⟨.busy, v.extractLsb' 0 4, false, 0#8⟩ s with schedule := rest }) ∧
    (step (hostTurn (write32 (offsetOf .status) v) rest s) =
      .next { s with
        schedule := rest
        status := ⟨s.status.done && !v.getLsbD 1, s.status.err && !v.getLsbD 2,
          s.status.aborted && !v.getLsbD 3⟩
        cause := if v.getLsbD 2 then CauseReg.clear else s.cause }) ∧
    (step (hostTurn (write32 (offsetOf .irqEn) v) rest s) =
      .next { s with schedule := rest, irqEn := ⟨v.getLsbD 1, v.getLsbD 2, v.getLsbD 3⟩ })

/-- R42: a write to ENC with PHASE of L or more, while no command runs, is refused whole and raises
PHASE_RANGE (R302: ACC = 1, OFFSET = 0x2C). -/
def Obligations.EncWriteWithPhaseTooLargeIsRefused : Prop :=
  ∀ (s : State) (v : Word) (rest : List Turn), s.rst = false → s.running = none →
    599400 ≤ (v.extractLsb' 0 20).toNat →
    step (hostTurn (write32 (offsetOf .enc) v) rest s) =
      .next { withError ⟨.phaseRange, 0#4, true, 0x2C#8⟩ s with schedule := rest }

/-- R44, R47: a write to ID or CAUSE is ignored without an error, busy or not. -/
def Obligations.WritesToIdAndCauseAreIgnored : Prop :=
  ∀ (s : State) (v : Word) (rest : List Turn), s.rst = false →
    step (hostTurn (write32 (offsetOf .id) v) rest s) = .next { s with schedule := rest } ∧
    step (hostTurn (write32 (offsetOf .cause) v) rest s) = .next { s with schedule := rest }

/-- R308: the host clears DONE, ERR and ABORTED by writing 1 to their positions; clearing ERR also
sets CAUSE to 0; nothing else is restored or changed, IRQ_EN among it. -/
def Obligations.StatusWriteAcknowledges : Prop :=
  ∀ (s : State) (v : Word) (rest : List Turn), s.rst = false →
    ∃ t, step (hostTurn (write32 (offsetOf .status) v) rest s) = .next t ∧
      t = { s with schedule := rest, status := t.status, cause := t.cause } ∧
      readReg .status t = readReg .status s &&& ~~~(v &&& 0x0000000E#32) ∧
      readReg .cause t = (if v.getLsbD 2 then 0#32 else readReg .cause s)

/-- R303: recording an error. With ERR = 0, CAUSE takes {8'b0, OFFSET, 7'b0, ACC, OP, CODE}; with
ERR = 1, CAUSE keeps the first error; ERR is 1 afterwards and nothing else changes. -/
def Obligations.FirstErrorIsRecordedAndKept : Prop :=
  ∀ (s : State) (c : CauseReg),
    record c s = { s with cause := (record c s).cause, status := ⟨s.status.done, true, s.status.aborted⟩ } ∧
    (s.status.err = false → (readReg .cause (record c s)).toNat =
      2 ^ 16 * c.offset.toNat + 2 ^ 8 * c.acc.toNat + 2 ^ 4 * c.op.toNat + causeNumber c.code) ∧
    (s.status.err = true → readReg .cause (record c s) = readReg .cause s)

/-- R306: IRQ is high exactly when a bit of STATUS and its enable in IRQ_EN are both 1. -/
def Obligations.IrqIsStatusAndEnables : Prop :=
  ∀ s : State,
    (s.irq = true ↔ (s.status.done = true ∧ s.irqEn.doneIe = true) ∨
      (s.status.err = true ∧ s.irqEn.errIe = true) ∨
      (s.status.aborted = true ∧ s.irqEn.abortIe = true)) ∧
    (s.irq = true ↔ readReg .status s &&& readReg .irqEn s ≠ 0#32)

/-! ### Timecode arithmetic -/

/-- R160: ADVANCE on a valid TC writes the advanced timecode and completes; on any other it raises
TC_RANGE and TC is unchanged. Nothing else changes (R169). That the error is recorded in the update that
completes the command is log entry 6. -/
def Obligations.AdvanceWritesAdvancedTimecode : Prop :=
  ∀ s : State,
    (s.tc.value.valid s.rate = true → exec .advance s =
      .next (ended { s with tc := TcReg.ofTimecode (advance s.tc.value s.rate) })) ∧
    (s.tc.value.valid s.rate = false → exec .advance s = .next (endedWith .tcRange .advance s))

/-- R161, R162, R164: the carry chain, digit by digit, on every valid timecode: frame carry at DIV,
seconds at 60, minutes at 60, hours modulo 24, and frames 0 and 1 skipped at rate 2 when the new
minute is not a multiple of 10. -/
def Obligations.AdvanceIsTheCarryChain : Prop :=
  ∀ (h m s f : Nat) (r : RateType), Timecode.valid ⟨h, m, s, f⟩ r = true →
    (f + 1 < r.div → advance ⟨h, m, s, f⟩ r = ⟨h, m, s, f + 1⟩) ∧
    (f + 1 = r.div → s < 59 → advance ⟨h, m, s, f⟩ r = ⟨h, m, s + 1, 0⟩) ∧
    (f + 1 = r.div → s = 59 → m < 59 →
      advance ⟨h, m, s, f⟩ r =
        ⟨h, m + 1, 0, if r = .fps2997 ∧ (m + 1) % 10 ≠ 0 then 2 else 0⟩) ∧
    (f + 1 = r.div → s = 59 → m = 59 →
      advance ⟨h, m, s, f⟩ r = ⟨if h = 23 then 0 else h + 1, 0, 0, 0⟩)

/-- R163: the result of an advance on a valid timecode is valid for the same rate, and TC holds it
without loss, so that no ADVANCE raises TC_RANGE on a TC that ADVANCE, or the end-of-frame commit of
FRAME or GENERATE (R272, R275), wrote. -/
def Obligations.AdvanceKeepsTimecodeValid : Prop :=
  (∀ (t : Timecode) (r : RateType), t.valid r = true → (advance t r).valid r = true) ∧
  (∀ s t : State, s.tc.value.valid s.rate = true →
    (exec .advance s = .next t ∨
      (s.running = some ⟨.frame, .commit⟩ ∧ exec .frame s = .next t) ∨
      (s.running = some ⟨.generate, .commit⟩ ∧ exec .generate s = .next t)) →
    t.tc.value = advance s.tc.value s.rate ∧ t.tc.value.valid t.rate = true)

/-- R165, and R166 for the other two rates: the least number of advances that returns to 00:00:00:00 is
2,160,000 at 25 fps, 2,589,408 at the drop-frame rate, 2,073,600 at 24 fps and 2,592,000 at 30 fps. -/
def Obligations.AdvanceCycleClosure : Prop :=
  ∀ r : RateType,
    (tick r)^[framesPerDay r] midnight = midnight ∧
    ∀ k, 0 < k → k < framesPerDay r → (tick r)^[k] midnight ≠ midnight

/-- R167: at the drop-frame rate a 10-minute block that starts at a multiple of 10 holds 17,982 frames,
an hour 107,892, and a day 2,589,408, which last 86,400 seconds at 2997/100 frames per second. -/
def Obligations.DropFrameCounts : Prop :=
  (∀ h m, h < 24 → m < 60 → m % 10 = 0 →
    (tick .fps2997)^[17982] ⟨h, m, 0, 0⟩ =
      (if m = 50 then ⟨(h + 1) % 24, 0, 0, 0⟩ else ⟨h, m + 10, 0, 0⟩)) ∧
  (∀ h, h < 24 → (tick .fps2997)^[107892] ⟨h, 0, 0, 0⟩ = ⟨(h + 1) % 24, 0, 0, 0⟩) ∧
  (tick .fps2997)^[2589408] midnight = midnight ∧
  17982 = 1800 + 9 * 1798 ∧ 107892 = 6 * 17982 ∧ 2589408 = 24 * 107892 ∧
  2589408 * RateType.fps2997.exactDen = 86400 * RateType.fps2997.exactNum

/-! ### Word assembly -/

/-- R190: BUILD on a valid TC writes the built word into WORD0..WORD2 and completes; on any other it
raises TC_RANGE and WORD is unchanged. Nothing else changes (R199). That BUILD reads TC although R199 says
it does not is log entry 23; that the error is recorded in the update that completes the command is log
entry 6. -/
def Obligations.BuildWritesBuiltWord : Prop :=
  ∀ s : State,
    (s.tc.value.valid s.rate = true → exec .build s =
      .next (ended { s with word := buildWord s.tc.value s.rate })) ∧
    (s.tc.value.valid s.rate = false → exec .build s = .next (endedWith .tcRange .build s))

/-- R193: W[27] makes the number of set bits of the 80-bit word even: it is 1 when the word with
W[27] = 0 has an odd number of them, which is 1 - (D mod 2) for the D set bits of positions 0 to 26
and 28 to 63. -/
def Obligations.BuiltWordHasEvenParity : Prop :=
  ∀ (t : Timecode) (r : RateType), t.valid r = true →
    popcount (buildWord t r) % 2 = 0 ∧
    (buildWord t r).getLsbD 27 =
      decide (popcount (buildWord t r &&& ~~~(BitVec.twoPow 80 27)) % 2 = 1) ∧
    ((buildWord t r).getLsbD 27).toNat =
      1 - (popcountBelow (buildWord t r) 64 - ((buildWord t r).getLsbD 27).toNat) % 2

/-- R119, R121, R195: positions 64 to 79 of every built word are the sync word in the order of the
list, WORD2 reads 0x0000BFFC, and the 36 user and reserved positions are 0. -/
def Obligations.BuiltWordFixedBits : Prop :=
  ∀ (t : Timecode) (r : RateType),
    (List.range 16).map (fun k => (buildWord t r).getLsbD (64 + k)) =
      [false, false, true, true, true, true, true, true, true, true, true, true, true, true, false, true] ∧
    word2 (buildWord t r) = 0x0000BFFC#32 ∧
    ∀ k ∈ [4, 5, 6, 7, 11, 12, 13, 14, 15, 20, 21, 22, 23, 28, 29, 30, 31, 36, 37, 38, 39, 43,
        44, 45, 46, 47, 52, 53, 54, 55, 58, 59, 60, 61, 62, 63],
      (buildWord t r).getLsbD k = false

/-- R197: the fields of a built word read back as the timecode it was built from, with the drop-frame
flag 1 exactly at rate 2. -/
def Obligations.BuildRoundTrip : Prop :=
  ∀ (t : Timecode) (r : RateType), t.valid r = true →
    decodeFields (buildWord t r) = (t, decide (r = .fps2997)) ∧
    get (buildWord t r) 0 4 = t.f % 10 ∧ get (buildWord t r) 8 2 = t.f / 10 ∧
    get (buildWord t r) 16 4 = t.s % 10 ∧ get (buildWord t r) 24 3 = t.s / 10 ∧
    get (buildWord t r) 32 4 = t.m % 10 ∧ get (buildWord t r) 40 3 = t.m / 10 ∧
    get (buildWord t r) 48 4 = t.h % 10 ∧ get (buildWord t r) 56 2 = t.h / 10

/-- R198: the drop-frame flag is 1 exactly at rate 2, and the words of one timecode at rates 2 and 3
differ only in W[10] and W[27]. -/
def Obligations.DropFrameFlagDifference : Prop :=
  ∀ t : Timecode,
    (∀ r : RateType, (buildWord t r).getLsbD 10 = decide (r = .fps2997)) ∧
    ∀ k < 80, ((buildWord t .fps2997).getLsbD k ≠ (buildWord t .fps30).getLsbD k ↔ k = 10 ∨ k = 27)

/-! ### Rendering -/

/-- R224: the 160 half-cell lengths of a frame sum to S, and for S >= 160 each is floor(S / 160) or
one more, so none is empty. -/
def Obligations.HalfCellLengthsSumToSpan : Prop :=
  ∀ S : Nat,
    boundary S 0 = 0 ∧ boundary S 160 = S ∧
    ((List.range 160).map fun j => boundary S (j + 1) - boundary S j).sum = S ∧
    (160 ≤ S → ∀ j < 160,
      (boundary S (j + 1) - boundary S j = S / 160 ∨
        boundary S (j + 1) - boundary S j = S / 160 + 1) ∧
      0 < boundary S (j + 1) - boundary S j)

/-- R222, R225, R233: a rendered frame has exactly S samples, of which exactly the first carries the
start-of-frame marker; the samples of half-cell j are constant at that half-cell's polarity; going
through the 160 half-cells the polarity changes exactly 80 + popcount(W) times, and the frame ends at
the last one's, which is its entry polarity exactly when the word has an even number of set bits. -/
def Obligations.RenderedFrameLengthAndPolarity : Prop :=
  ∀ (w : LtcWord) (S : Nat) (a : BitVec 15) (p : Polarity), 160 ≤ S →
    (renderFrame w S a p).1.length = S ∧
    (∀ n (h : n < (renderFrame w S a p).1.length),
      ((renderFrame w S a p).1[n]).sof = decide (n = 0) ∧
      ∀ j < 160, boundary S j ≤ n → n < boundary S (j + 1) →
        ((renderFrame w S a p).1[n]).data = sampleValue (halfCellPolarity w p j) a) ∧
    transitions w p = 80 + popcount w ∧
    (renderFrame w S a p).2 = halfCellPolarity w p 159 ∧
    (renderFrame w S a p).2 = Polarity.flip^[80 + popcount w] p ∧
    ((renderFrame w S a p).2 = p ↔ popcount w % 2 = 0)

/-- R223: the sample at polarity +1 is +A and at polarity -1 is -A, in 16-bit two's complement; the
negative one is the number (65536 - A) mod 65536. -/
def Obligations.SampleIsSignedAmplitude : Prop :=
  ∀ a : BitVec 15,
    (sampleValue .plus a).toInt = a.toNat ∧ (sampleValue .minus a).toInt = -(a.toNat : Int) ∧
    (sampleValue .plus a).toNat = a.toNat ∧
    (sampleValue .minus a).toNat = (65536 - a.toNat) % 65536

/-- R220, R226: RENDER with SPAN < 160 raises SPAN_SHORT before any sample; with SPAN >= 160 it starts
the frame: the running polarity is the negation of ENC.POL and the first sample, marked
start-of-frame, is offered. That the error is recorded in the update that completes the command is log
entry 6. -/
def Obligations.RenderStartsOrRefuses : Prop :=
  ∀ s : State, (s.running = none ∨ s.running = some ⟨.render, .start⟩) →
    (s.span.toNat < 160 → exec .render s = .next (endedWith .spanShort .render s)) ∧
    (160 ≤ s.span.toNat → exec .render s =
      .next { s with
        runPol := s.enc.pol.flip
        running := some ⟨.render, .emit 0 ⟨sampleValue s.enc.pol.flip s.amp, true⟩⟩ })

/-- R87, R222, R233: a frame being emitted, alike under RENDER, FRAME and GENERATE. Without SMP_READY
nothing changes. With it the sample on the port is accepted, and the next one is offered, at the
polarity flipped on entering a cell's first half, flipped on entering the second half of a 1 bit, and
else unchanged; after the last sample the port is empty. That a block without SMP_READY steps, to the
same state, is log entry 9; that the next sample is offered in the step of the transfer is log entry 5. -/
def Obligations.EmissionFollowsHandshake : Prop :=
  ∀ (s : State) (i : Instr) (n : Nat) (p : PortSample),
    (i = .render ∨ i = .frame ∨ i = .generate) → s.running = some ⟨i, .emit n p⟩ →
    160 ≤ s.span.toNat → n < s.span.toNat →
    (s.smpReady = false → exec i s = .next s) ∧
    (s.smpReady = true → n + 1 = s.span.toNat →
      exec i s = .next { s with sent := p :: s.sent, running := some ⟨i, .commit⟩ }) ∧
    (s.smpReady = true → n + 1 < s.span.toNat →
      ∃ q : Polarity, exec i s =
        .next { s with
          sent := p :: s.sent
          runPol := q
          running := some ⟨i, .emit (n + 1) ⟨sampleValue q s.amp, false⟩⟩ } ∧
        (∀ k < 80, n + 1 = boundary s.span.toNat (2 * k) → q = s.runPol.flip) ∧
        (∀ k < 80, n + 1 = boundary s.span.toNat (2 * k + 1) →
          q = if s.word.getLsbD k then s.runPol.flip else s.runPol) ∧
        ((∀ j < 160, n + 1 ≠ boundary s.span.toNat j) → q = s.runPol))

/-- R91, R220, R307: RENDER after its last sample writes ENC.POL, and then completes. That these are two
updates is log entry 5. -/
def Obligations.RenderCommitsPolarityAndCompletes : Prop :=
  ∀ s : State,
    (s.running = some ⟨.render, .commit⟩ → exec .render s =
      .next { s with enc := ⟨s.runPol, s.enc.phase⟩, running := some ⟨.render, .finish⟩ }) ∧
    (s.running = some ⟨.render, .finish⟩ → exec .render s = .next (ended s))

/-- R220, R222: from any idle state with SPAN >= 160 and a sink that accepts every sample, a RENDER
written to CMD makes the sink receive exactly the rendering of WORD0..WORD2, in order, leaves the exit
polarity in ENC.POL, sets DONE and changes nothing else. One step takes each sample, one issues the
command, one commits and one completes; how updates are cut into steps is the model's choice (log
entries 2 and 5). -/
def Obligations.RenderRunEmitsTheRenderedFrame : Prop :=
  ∀ s : State, IdleReady s → 160 ≤ s.span.toNat →
    let f := renderFrame s.word s.span.toNat s.amp s.enc.pol
    core.run (s.span.toNat + 3) (s.withFetchWord 32 0x4) =
      .next (ended { s with
        enc := ⟨f.2, s.enc.phase⟩
        runPol := f.2
        sent := f.1.reverse ++ s.sent })

/-! ### Spans -/

/-- R227, R228: NEXTSPAN writes the span ROUND(X / L) - ROUND(A / L) and the phase X mod L, with
X = A + SRATE × K(RATE), both without loss, and completes; with SRATE = 0 it raises SRATE_ZERO and SPAN
and ENC are unchanged. That the error is recorded in the update that completes the command is log entry
6. -/
def Obligations.NextspanWritesSpanAndPhase : Prop :=
  ∀ s : State,
    let x := s.enc.phase.toNat + s.srate.toNat * s.rate.period
    (s.srate ≠ 0#32 → ∃ t, exec .nextspan s = .next t ∧
      t = ended { s with span := t.span, enc := ⟨s.enc.pol, t.enc.phase⟩ } ∧
      t.span.toNat = roundDiv x 599400 - roundDiv s.enc.phase.toNat 599400 ∧
      t.enc.phase.toNat = x % 599400) ∧
    (s.srate = 0#32 → exec .nextspan s = .next (endedWith .srateZero .nextspan s))

/-- R229: the spans of a segment are the source's, ROUND((i + 1) × SR / EXACT) - ROUND(i × SR / EXACT),
and the phase after frame i is (i + 1) × SR × K mod L. -/
def Obligations.SegmentSpansAreTheSources : Prop :=
  ∀ (sr : Nat) (r : RateType) (i : Nat),
    segmentSpan sr r i = idealSamples sr r (i + 1) - idealSamples sr r i ∧
    segmentPhase sr r (i + 1) = (i + 1) * sr * r.period % 599400

/-- R230: n spans from PHASE = 0 sum to ROUND(n × SR / EXACT), with no drift, and each single span is
floor(SR / EXACT) or one more. -/
def Obligations.SegmentTotalIsDriftFree : Prop :=
  ∀ (sr : Nat) (r : RateType) (n : Nat),
    ((List.range n).map (segmentSpan sr r)).sum = idealSamples sr r n ∧
    ∀ i < n, segmentSpan sr r i = sr * r.exactDen / r.exactNum ∨
      segmentSpan sr r i = sr * r.exactDen / r.exactNum + 1

/-- R349: every frame of a segment is renderable exactly when SRATE >= 160 × EXACT(RATE); the least
such rates are 3840, 4000, 4796 and 4800 Hz; and at 4795 Hz and rate 2, frames 0 to 73 have 160
samples and frame 74 has 159. -/
def Obligations.MinimumSampleRate : Prop :=
  (∀ (sr : Nat) (r : RateType),
    ((∀ i, 160 ≤ segmentSpan sr r i) ↔ 160 * 599400 ≤ sr * r.period) ∧
    ((∀ i, 160 ≤ segmentSpan sr r i) ↔ 160 * r.exactNum ≤ sr * r.exactDen) ∧
    ((∀ i, 160 ≤ segmentSpan sr r i) ↔
      (match r with
        | .fps24 => 3840
        | .fps25 => 4000
        | .fps2997 => 4796
        | .fps30 => 4800) ≤ sr)) ∧
  (∀ i < 74, segmentSpan 4795 .fps2997 i = 160) ∧ segmentSpan 4795 .fps2997 74 = 159

/-- R232, R53: SEGRESET sets ENC to polarity +1 and phase 0, completes, and changes no other register.
That the running polarity follows is read from R50 (log entry 18). -/
def Obligations.SegresetResetsEncoderState : Prop :=
  ∀ s : State, ∃ t, exec .segreset s = .next t ∧
    t = ended { s with enc := ⟨.plus, 0#20⟩, runPol := .plus } ∧ readReg .enc t = 0x00000000#32

/-! ### Sequencing -/

/-- R270: NOP completes and does nothing else. -/
def Obligations.NopOnlyCompletes : Prop :=
  ∀ s : State, exec .nop s = .next (ended s)

/-- R272, R305: FRAME, and GENERATE at each frame, check SRATE, then TC, then the span, before any write
or sample; a failed check ends the command with its cause and changes no register but STATUS and CAUSE
(under GENERATE the abort latch is cleared, R50; log entry 19). That the error is recorded in the update
that completes the command is log entry 6. -/
def Obligations.FrameChecksInOrder : Prop :=
  ∀ s : State,
    let cause := if s.srate = 0#32 then Cause.srateZero
      else if s.tc.value.valid s.rate = false then Cause.tcRange else Cause.spanShort
    (s.srate = 0#32 ∨ s.tc.value.valid s.rate = false ∨ nextSpan s < 160) →
    ((s.running = none ∨ s.running = some ⟨.frame, .start⟩) →
      exec .frame s = .next (endedWith cause .frame s)) ∧
    ((s.running = none ∨ s.running = some ⟨.generate, .start⟩) → s.frames ≠ 0#32 →
      exec .generate s = .next { endedWith cause .generate s with abortLatch := false })

/-- R272, R273: a frame whose checks pass begins, under FRAME and under GENERATE alike, with the commit
of SPAN, ENC.PHASE and WORD together and the offer of its first sample; ENC.POL, TC and FRAMES keep
their values. R273 puts the commit before the offer; that both are one step is log entry 5. -/
def Obligations.FrameStartCommit : Prop :=
  ∀ s : State, s.srate ≠ 0#32 → s.tc.value.valid s.rate = true → 160 ≤ nextSpan s →
    let x := s.enc.phase.toNat + s.srate.toNat * s.rate.period
    let begun (i : Instr) (t : State) : Prop :=
      exec i s = .next t ∧
      t = { s with
        span := t.span
        enc := ⟨s.enc.pol, t.enc.phase⟩
        word := buildWord s.tc.value s.rate
        runPol := s.enc.pol.flip
        running := some ⟨i, .emit 0 ⟨sampleValue s.enc.pol.flip s.amp, true⟩⟩ } ∧
      t.span.toNat = roundDiv x 599400 - roundDiv s.enc.phase.toNat 599400 ∧
      t.enc.phase.toNat = x % 599400
    ((s.running = none ∨ s.running = some ⟨.frame, .start⟩) → ∃ t, begun .frame t) ∧
    ((s.running = none ∨ s.running = some ⟨.generate, .start⟩) → s.frames ≠ 0#32 →
      ∃ t, begun .generate t)

/-- R272, R273, R275: after the last sample FRAME commits ENC.POL and TC together, and GENERATE also
FRAMES, one less; FRAME then completes. That the completion is an update of its own is log entry 5. -/
def Obligations.FrameEndCommit : Prop :=
  ∀ s : State,
    (s.running = some ⟨.frame, .commit⟩ → exec .frame s =
      .next { s with
        enc := ⟨s.runPol, s.enc.phase⟩
        tc := TcReg.ofTimecode (advance s.tc.value s.rate)
        running := some ⟨.frame, .finish⟩ }) ∧
    (s.running = some ⟨.frame, .finish⟩ → exec .frame s = .next (ended s)) ∧
    (s.running = some ⟨.generate, .commit⟩ → s.frames ≠ 0#32 → ∃ t, exec .generate s = .next t ∧
      t = { s with
        enc := ⟨s.runPol, s.enc.phase⟩
        tc := TcReg.ofTimecode (advance s.tc.value s.rate)
        frames := t.frames
        running := some ⟨.generate, .finish⟩ } ∧
      t.frames.toNat + 1 = s.frames.toNat)

/-- R275, R276: at a frame boundary GENERATE completes when no frame is left, without ABORTED even if
an abort was asked for; stops with ABORTED when one was and frames are left; and else goes on to the
next frame. Stopping clears the abort latch, and with FRAMES = 0 from the start nothing but DONE
changes. That the boundary check is an update of its own, which goes on to a start with the port empty
although R274 puts no gap between frames, is log entry 5; that every end clears the latch, and that it
is looked at only here, is log entry 19. -/
def Obligations.GenerateFrameBoundary : Prop :=
  ∀ s : State,
    (s.running = some ⟨.generate, .finish⟩ →
      (s.frames = 0#32 → exec .generate s = .next { ended s with abortLatch := false }) ∧
      (s.frames ≠ 0#32 → s.abortLatch = true → exec .generate s =
        .next { ended s with abortLatch := false, status := ⟨true, s.status.err, true⟩ }) ∧
      (s.frames ≠ 0#32 → s.abortLatch = false → exec .generate s =
        .next { s with running := some ⟨.generate, .start⟩ })) ∧
    ((s.running = none ∨ s.running = some ⟨.generate, .start⟩) → s.frames = 0#32 →
      exec .generate s = .next { ended s with abortLatch := false })

/-- R276: ABORT when no other command runs completes with DONE alone; while GENERATE runs it only sets
the abort latch; while any other command runs it has no effect. -/
def Obligations.AbortOnlySetsLatchOrCompletes : Prop :=
  ∀ s : State,
    ((s.running = none ∨ s.running = some ⟨.abort, .start⟩) → exec .abort s = .next (ended s)) ∧
    (∀ (i : Instr) (p : Phase), s.running = some ⟨i, p⟩ → i ≠ .abort → exec .abort s =
      .next { s with abortLatch := s.abortLatch || decide (i = .generate) })

/-- R271, R272: from any idle state whose checks pass, with a sink that accepts every sample, a FRAME
written to CMD makes the sink receive the rendering of the word of the timecode TC held, over the
computed span; it leaves SPAN, WORD and PHASE as committed, TC one frame on, ENC.POL as it was (R225),
DONE set, and nothing else changed. The number of steps is the model's choice (log entries 2 and
5). -/
def Obligations.FrameRunProducesOneFrame : Prop :=
  ∀ s : State, IdleReady s → s.srate ≠ 0#32 →
    s.tc.value.valid s.rate = true → 160 ≤ nextSpan s →
    let w := buildWord s.tc.value s.rate
    core.run (nextSpan s + 3) (s.withFetchWord 32 0x5) =
      .next (ended { s with
        span := BitVec.ofNat 32 (nextSpan s)
        enc := ⟨s.enc.pol, BitVec.ofNat 20 (phaseAfter s.enc.phase.toNat s.srate.toNat s.rate)⟩
        word := w
        tc := TcReg.ofTimecode (advance s.tc.value s.rate)
        runPol := s.enc.pol
        sent := (renderFrame w (nextSpan s) s.amp s.enc.pol).1.reverse ++ s.sent })

/-- R271, program P7: FRAME is NEXTSPAN, BUILD, RENDER and ADVANCE issued in turn: from any idle state
whose checks pass, with a sink that accepts every sample, both reach the same state, samples
included. The numbers of steps are the model's choice (log entries 2 and 5). -/
def Obligations.FrameEqualsItsFourCommands : Prop :=
  ∀ s : State, IdleReady s → s.srate ≠ 0#32 →
    s.tc.value.valid s.rate = true → 160 ≤ nextSpan s →
    ∃ a b c d, core.run 1 (s.withFetchWord 32 0x3) = .next a ∧
      core.run 1 (a.withFetchWord 32 0x2) = .next b ∧
      core.run (nextSpan s + 3) (b.withFetchWord 32 0x4) = .next c ∧
      core.run 1 (c.withFetchWord 32 0x1) = .next d ∧
      core.run (nextSpan s + 3) (s.withFetchWord 32 0x5) = .next d

/-- R274, R275, R277: from any idle safe state with a valid TC and a sample rate at which every frame
is renderable, with a sink that accepts every sample, a GENERATE written to CMD completes; the sink has
received the source's sequence, frame after frame; TC is FRAMES frames on, FRAMES is 0, ENC.POL is as
it was and PHASE carried over; SPAN and WORD are the last frame's, and unchanged when FRAMES was 0; and
from PHASE = 0 the samples number ROUND(FRAMES × SRATE / EXACT(RATE)). -/
def Obligations.GenerateRunIsTheSourcesSequence : Prop :=
  ∀ s : State, IdleReady s → Inv s → s.tc.value.valid s.rate = true →
    160 * s.rate.exactNum ≤ s.srate.toNat * s.rate.exactDen →
    let n := s.frames.toNat
    let phaseAt (i : Nat) := (fun a => phaseAfter a s.srate.toNat s.rate)^[i] s.enc.phase.toNat
    let timecodeAt (i : Nat) := (tick s.rate)^[i] s.tc.value
    let samples := sequenceSamples s.srate.toNat s.amp s.rate n s.tc.value s.enc.phase.toNat s.enc.pol
    (∃ k, core.run k (s.withFetchWord 32 0x6) =
      .next (ended { s with
        frames := 0#32
        tc := TcReg.ofTimecode (timecodeAt n)
        enc := ⟨s.enc.pol, BitVec.ofNat 20 (phaseAt n)⟩
        span := if n = 0 then s.span else BitVec.ofNat 32 (spanOf (phaseAt (n - 1)) s.srate.toNat s.rate)
        word := if n = 0 then s.word else buildWord (timecodeAt (n - 1)) s.rate
        sent := samples.reverse ++ s.sent })) ∧
    (s.enc.phase = 0#20 → samples.length = idealSamples s.srate.toNat s.rate n)

/-! ### Reset, and the whole machine -/

/-- R52: what every register reads after reset, and the internal state. -/
def Obligations.ResetValues : Prop :=
  readReg .id State.reset = 0x4C544301#32 ∧ readReg .status State.reset = 0x00000000#32 ∧
  readReg .cause State.reset = 0x00000000#32 ∧ readReg .irqEn State.reset = 0x00000000#32 ∧
  readReg .tc State.reset = 0x00000000#32 ∧ readReg .rate State.reset = 0x00000000#32 ∧
  readReg .srate State.reset = 0x0000BB80#32 ∧ readReg .amp State.reset = 0x00004000#32 ∧
  readReg .span State.reset = 0x00000000#32 ∧ readReg .frames State.reset = 0x00000000#32 ∧
  readReg .enc State.reset = 0x00000000#32 ∧ readReg .word0 State.reset = 0x00000000#32 ∧
  readReg .word1 State.reset = 0x00000000#32 ∧ readReg .word2 State.reset = 0x00000000#32 ∧
  State.reset.runPol = .plus ∧ State.reset.abortLatch = false ∧ State.reset.running = none ∧
  State.reset.port = none

/-- R340: while RST is high, and at the edge where it falls, every register takes its reset value and
the internal state is reset: the running command is abandoned without DONE, the sample on the port is
withdrawn and IRQ is low. What the sink has accepted stays accepted (R343). That one turn is the edge at
which RST is sampled, and that the pins, the schedule and the records of sink and host stay, is log entry
8. -/
def Obligations.RstResetsTheBlock : Prop :=
  ∀ (s : State) (level : Bool) (rest : List Turn), level = true ∨ s.rst = true →
    s.schedule = .rst level :: rest →
    ∃ t, step s = .next t ∧
      t = { State.reset with
        rst := level, smpReady := s.smpReady, schedule := rest, sent := s.sent, reads := s.reads } ∧
      (∀ r, readReg r t = readReg r State.reset) ∧ t.smpValid = false ∧ t.irq = false

/-- The invariant holds right after reset. -/
def Obligations.ResetMeetsInvariant : Prop := Inv State.reset

/-- Every step from a state that meets the invariant gives one that meets it: PHASE stays below L
(R42), CAUSE is 0 exactly while ERR is clear (R46, R303), the abort latch is set only while GENERATE
runs and the running polarity is ENC.POL outside a frame and that of the current half-cell inside one
(R50), and the sample on the port is the one the frame's word, span and amplitude give (R222). -/
def Obligations.EveryStepKeepsInvariant : Prop :=
  ∀ s t : State, Inv s → step s = .next t → Inv t

/-- R300, R309: from every state, whatever the schedule, a step gives a next state; errors and all,
the block goes on, with no fault, no refusal and no lock-up state (log entries 9, 10 and 16). -/
def Obligations.EveryStepHasNextState : Prop :=
  ∀ s : State, ∃ t, step s = .next t

/-- R280, R315: an idle block changes nothing until the host or the platform acts; and while RST is
high neither its own turn nor a host access changes anything in it (R340, R341): a write has no effect, a
read returns a value (R54), which for a bad one is 0 (R83), and records no error (log entry 7). That an
idle turn is a step without a change is the model's choice (log entry 10). -/
def Obligations.IdleBlockHoldsItsState : Prop :=
  ∀ (s : State) (rest : List Turn),
    (s.running = none →
      (s.schedule = [] → step s = .next s) ∧
      (s.schedule = .core :: rest → step s = .next { s with schedule := rest })) ∧
    (s.rst = true →
      ((s.schedule = .core :: rest ∨ ∃ off width v, s.schedule = .host (.write off width v) :: rest) →
        step s = .next { s with schedule := rest }) ∧
      ∀ (off : Byte) (width : Nat), s.schedule = .host (.read off width) :: rest →
        (∃ v, step s = .next { s with schedule := rest, reads := v :: s.reads }) ∧
        (width ≠ 32 ∨ off.toNat % 4 ≠ 0 ∨ 0x3C ≤ off.toNat →
          step s = .next { s with schedule := rest, reads := 0#32 :: s.reads }))

/-- R87: from every safe state, a step leaves the sample on the port unchanged, or the sink has
accepted it, once and with SMP_READY high, or reset has dropped it; and the sink receives no other
sample. -/
def Obligations.PortHoldsSampleUntilTransfer : Prop :=
  ∀ s t : State, Inv s → step s = .next t →
    (∀ p, s.port = some p →
      (t.port = some p ∧ t.sent = s.sent) ∨ (t.sent = p :: s.sent ∧ s.smpReady = true) ∨
      (t.rst = true ∧ t.port = none ∧ t.sent = s.sent)) ∧
    (s.port = none → t.sent = s.sent)

/-- R304, R303, R309: a command's update that records an error ends the command and writes no register
but STATUS and CAUSE, and emits no sample. It records one when CAUSE or ERR changes, and when it would
set ERR had the host cleared it: so it is with an error raised while ERR is already 1, which CAUSE does
not show. That DONE comes with the recording is log entry 6. -/
def Obligations.CommandErrorsArePrecise : Prop :=
  ∀ (i : Instr) (s t : State), exec i s = .next t →
    (t.cause ≠ s.cause ∨ t.status.err ≠ s.status.err ∨
      ∃ u, exec i (withoutError s) = .next u ∧ u.status.err = true) →
    t.running = none ∧ t.status.done = true ∧ t.status.err = true ∧ t.status.aborted = s.status.aborted ∧
    (s.status.err = true → t.cause = s.cause) ∧
    (∀ r, r ≠ .status → r ≠ .cause → readReg r t = readReg r s) ∧ t.sent = s.sent ∧
    t.runPol = s.runPol

/-- R307, R351: with a sink that accepts every sample and no other turn scheduled, every running
command completes: after finitely many steps BUSY is 0 and DONE is 1. -/
def Obligations.EveryRunningCommandCompletes : Prop :=
  ∀ s : State, Inv s → s.rst = false → s.smpReady = true → s.schedule = [] → s.running ≠ none →
    ∃ k t, core.run k s = .next t ∧ t.running = none ∧ t.status.done = true

/-- R348: a sink that accepts nothing holds a render for ever, and ABORT cannot end it: with SMP_READY
low and a sample on the port, no number of steps changes anything, and an ABORT changes at most the
abort latch. That a stalled block still steps, to the same state, is the model's choice (log entry 9). -/
def Obligations.StalledSinkHoldsRender : Prop :=
  ∀ (s : State) (p : PortSample), Inv s → s.rst = false → s.smpReady = false → s.port = some p →
    (s.schedule = [] → ∀ k, core.run k s = .next s) ∧
    (∀ rest, ∃ t, step (hostTurn (write32 0x04#8 0x00000008#32) rest s) = .next t ∧
      t = { s with schedule := rest, abortLatch := t.abortLatch } ∧ t.port = some p)
end

