-- ==== Sys2Proof/Laws/Render.lean ====
section
/-! SUPPORT. The half-cells of a frame, and the equality of the two renderings: R222's loop over bits
and the block's one sample at a time. -/

namespace Sys2Proof.Laws

open Sys2Proof.Machine

/-! ### Half-cells -/

theorem boundary_le_iff (S j n : Nat) (hS : 0 < S) : boundary S j ≤ n ↔ j ≤ halfCellOf S n := by
  rw [boundary, halfCellOf, Nat.le_div_iff_mul_le hS]
  omega

theorem boundary_zero (S : Nat) : boundary S 0 = 0 := by simp [boundary]

theorem boundary_last (S : Nat) : boundary S 160 = S := by unfold boundary; omega

/-- Each half-cell has floor(S / 160) samples or one more (R224). -/
theorem boundary_succ (S j : Nat) :
    boundary S j + S / 160 ≤ boundary S (j + 1) ∧ boundary S (j + 1) ≤ boundary S j + S / 160 + 1 := by
  have h : (j + 1) * S = j * S + S := by ring
  unfold boundary
  omega

theorem boundary_lt_succ (S j : Nat) (hS : 160 ≤ S) : boundary S j < boundary S (j + 1) := by
  have := boundary_succ S j
  omega

theorem boundary_mono (S : Nat) {i j : Nat} (h : i ≤ j) : boundary S i ≤ boundary S j := by
  have := Nat.mul_le_mul_right S h
  unfold boundary
  omega

theorem halfCellOf_eq_iff (S n j : Nat) (hS : 0 < S) :
    halfCellOf S n = j ↔ boundary S j ≤ n ∧ n < boundary S (j + 1) := by
  have h1 := boundary_le_iff S j n hS
  have h2 := boundary_le_iff S (j + 1) n hS
  omega

theorem halfCellOf_lt (S n : Nat) (hS : 0 < S) (hn : n < S) : halfCellOf S n < 160 := by
  have h := boundary_le_iff S 160 n hS
  rw [boundary_last] at h
  omega

/-- The next sample lies in the same half-cell, or it is the first of the next one. -/
theorem halfCellOf_succ (S n : Nat) (hS : 160 ≤ S) :
    (halfCellOf S (n + 1) = halfCellOf S n ∧ n + 1 ≠ boundary S (halfCellOf S (n + 1))) ∨
      (halfCellOf S (n + 1) = halfCellOf S n + 1 ∧ n + 1 = boundary S (halfCellOf S (n + 1))) := by
  obtain ⟨h1, h2⟩ := (halfCellOf_eq_iff S n _ (by omega)).1 rfl
  have h3 := boundary_lt_succ S (halfCellOf S n + 1) hS
  by_cases h : n + 1 < boundary S (halfCellOf S n + 1)
  · left
    have e := (halfCellOf_eq_iff S (n + 1) (halfCellOf S n) (by omega)).2 ⟨by omega, h⟩
    rw [e]
    exact ⟨rfl, by omega⟩
  · right
    have e := (halfCellOf_eq_iff S (n + 1) (halfCellOf S n + 1) (by omega)).2 ⟨by omega, by omega⟩
    rw [e]
    exact ⟨rfl, by omega⟩

/-! ### Polarity -/

theorem polarity_flip_flip (p : Polarity) : p.flip.flip = p := by cases p <;> rfl

theorem polarity_flip_ne (p : Polarity) : p.flip ≠ p := by cases p <;> decide

theorem halfCellPolarity_even (w : LtcWord) (p : Polarity) (k : Nat) :
    halfCellPolarity w p (2 * (k + 1)) = (halfCellPolarity w p (2 * k + 1)).flip := by
  rw [(by ring : 2 * (k + 1) = 2 * k + 1 + 1), halfCellPolarity, enterHalfCell, if_pos (by omega)]

theorem halfCellPolarity_odd (w : LtcWord) (p : Polarity) (k : Nat) :
    halfCellPolarity w p (2 * k + 1) =
      if w.getLsbD k then (halfCellPolarity w p (2 * k)).flip else halfCellPolarity w p (2 * k) := by
  rw [halfCellPolarity, enterHalfCell, if_neg (by omega), (by omega : (2 * k + 1) / 2 = k)]

theorem polarityAt_zero (w : LtcWord) (S : Nat) (p : Polarity) (hS : 160 ≤ S) :
    polarityAt w S 0 p = halfCellPolarity w p (halfCellOf S 0) := by
  have h : halfCellOf S 0 = 0 := by
    rw [halfCellOf]
    exact Nat.div_eq_of_lt (by omega)
  rw [polarityAt, h, boundary_zero, if_pos rfl, halfCellPolarity]

/-- Updating the running polarity at each sample keeps it that of the sample's half-cell (R50, R222). -/
theorem polarityAt_succ (w : LtcWord) (S n : Nat) (p : Polarity) (hS : 160 ≤ S) :
    polarityAt w S (n + 1) (halfCellPolarity w p (halfCellOf S n)) =
      halfCellPolarity w p (halfCellOf S (n + 1)) := by
  rcases halfCellOf_succ S n hS with ⟨h, hb⟩ | ⟨h, hb⟩
  · rw [polarityAt, if_neg hb, h]
  · rw [polarityAt, if_pos hb, h, halfCellPolarity]

/-! ### The rendered frame -/

/-- Sample n of a frame, from the word, the span, the amplitude and the entry polarity. -/
def frameSample (w : LtcWord) (S : Nat) (a : BitVec 15) (p : Polarity) (n : Nat) : PortSample :=
  ⟨sampleValue (halfCellPolarity w p (halfCellOf S n)) a, n == 0⟩

theorem halfCellSamples_eq (w : LtcWord) (S : Nat) (a : BitVec 15) (p : Polarity) (j : Nat) (hS : 0 < S) :
    halfCellSamples S a j (halfCellPolarity w p j) =
      (List.range' (boundary S j) (boundary S (j + 1) - boundary S j)).map (frameSample w S a p) := by
  apply List.map_congr_left
  intro n hn
  have := boundary_mono S (Nat.le_succ j)
  rw [List.mem_range'_1] at hn
  rw [frameSample, (halfCellOf_eq_iff S n j hS).2 ⟨hn.1, by omega⟩]

theorem range'_boundary_append (S i j k : Nat) (hij : i ≤ j) (hjk : j ≤ k) :
    List.range' (boundary S i) (boundary S j - boundary S i) ++
        List.range' (boundary S j) (boundary S k - boundary S j) =
      List.range' (boundary S i) (boundary S k - boundary S i) := by
  have h1 := boundary_mono S hij
  have h2 := boundary_mono S hjk
  have h := List.range'_append_1 (s := boundary S i) (m := boundary S j - boundary S i)
    (n := boundary S k - boundary S j)
  rw [(by omega : boundary S i + (boundary S j - boundary S i) = boundary S j),
    (by omega : boundary S j - boundary S i + (boundary S k - boundary S j) =
      boundary S k - boundary S i)] at h
  exact h

/-- The polarity before bit k: the entry polarity, or that of the last half-cell of bit k - 1. -/
def polarityBeforeBit (w : LtcWord) (p : Polarity) : Nat → Polarity
  | 0 => p
  | k + 1 => halfCellPolarity w p (2 * k + 1)

theorem flip_polarityBeforeBit (w : LtcWord) (p : Polarity) (k : Nat) :
    (polarityBeforeBit w p k).flip = halfCellPolarity w p (2 * k) := by
  cases k with
  | zero => rfl
  | succ k => rw [polarityBeforeBit, halfCellPolarity_even]

/-- The loop of R222 from bit k on emits the frame's samples from b(2k) on. -/
theorem renderFrom_eq (w : LtcWord) (S : Nat) (a : BitVec 15) (p : Polarity) (hS : 0 < S) (count k : Nat) :
    renderFrom w S a count k (polarityBeforeBit w p k) =
      ((List.range' (boundary S (2 * k)) (boundary S (2 * (k + count)) - boundary S (2 * k))).map
        (frameSample w S a p), polarityBeforeBit w p (k + count)) := by
  induction count generalizing k with
  | zero => simp [renderFrom]
  | succ count ih =>
    rw [renderFrom]
    simp only [flip_polarityBeforeBit, ← halfCellPolarity_odd]
    have e := ih (k + 1)
    rw [polarityBeforeBit] at e
    rw [e, halfCellSamples_eq w S a p _ hS, halfCellSamples_eq w S a p _ hS, ← List.map_append,
      ← List.map_append, (by ring : 2 * k + 1 + 1 = 2 * (k + 1)),
      range'_boundary_append S _ _ _ (by omega) (by omega),
      range'_boundary_append S _ _ _ (by omega) (by omega), (by ring : k + 1 + count = k + (count + 1))]

/-- The rendering of R222 is the frame sample by sample, and its exit polarity that of the last
half-cell. -/
theorem renderFrame_eq (w : LtcWord) (S : Nat) (a : BitVec 15) (p : Polarity) (hS : 0 < S) :
    renderFrame w S a p = ((List.range S).map (frameSample w S a p), halfCellPolarity w p 159) := by
  have h := renderFrom_eq w S a p hS 80 0
  simp only [Nat.mul_zero, boundary_zero, Nat.zero_add, Nat.sub_zero] at h
  rw [boundary_last, ← List.range_eq_range'] at h
  exact h

end Sys2Proof.Laws
end

