-- ==== Sys2Proof/Laws/State.lean ====
section
/-! SUPPORT. One lemma per field per named update of the state, so that no proof unfolds an update. -/

namespace Sys2Proof.Laws

open Sys2Proof.Machine

/-! ### complete: completion (R307) -/

@[simp] theorem complete_status (s : State) :
    (complete s).status = ⟨true, s.status.err, s.status.aborted⟩ := rfl
@[simp] theorem complete_cause (s : State) : (complete s).cause = s.cause := rfl
@[simp] theorem complete_irqEn (s : State) : (complete s).irqEn = s.irqEn := rfl
@[simp] theorem complete_tc (s : State) : (complete s).tc = s.tc := rfl
@[simp] theorem complete_rate (s : State) : (complete s).rate = s.rate := rfl
@[simp] theorem complete_srate (s : State) : (complete s).srate = s.srate := rfl
@[simp] theorem complete_amp (s : State) : (complete s).amp = s.amp := rfl
@[simp] theorem complete_span (s : State) : (complete s).span = s.span := rfl
@[simp] theorem complete_frames (s : State) : (complete s).frames = s.frames := rfl
@[simp] theorem complete_enc (s : State) : (complete s).enc = s.enc := rfl
@[simp] theorem complete_word (s : State) : (complete s).word = s.word := rfl
@[simp] theorem complete_runPol (s : State) : (complete s).runPol = s.runPol := rfl
@[simp] theorem complete_abortLatch (s : State) : (complete s).abortLatch = s.abortLatch := rfl
@[simp] theorem complete_running (s : State) : (complete s).running = none := rfl
@[simp] theorem complete_smpReady (s : State) : (complete s).smpReady = s.smpReady := rfl
@[simp] theorem complete_rst (s : State) : (complete s).rst = s.rst := rfl
@[simp] theorem complete_schedule (s : State) : (complete s).schedule = s.schedule := rfl
@[simp] theorem complete_sent (s : State) : (complete s).sent = s.sent := rfl
@[simp] theorem complete_reads (s : State) : (complete s).reads = s.reads := rfl

/-! ### accept: acceptance (R112) -/

@[simp] theorem accept_status (i : Instr) (s : State) : (accept i s).status = s.status := rfl
@[simp] theorem accept_cause (i : Instr) (s : State) : (accept i s).cause = s.cause := rfl
@[simp] theorem accept_irqEn (i : Instr) (s : State) : (accept i s).irqEn = s.irqEn := rfl
@[simp] theorem accept_tc (i : Instr) (s : State) : (accept i s).tc = s.tc := rfl
@[simp] theorem accept_rate (i : Instr) (s : State) : (accept i s).rate = s.rate := rfl
@[simp] theorem accept_srate (i : Instr) (s : State) : (accept i s).srate = s.srate := rfl
@[simp] theorem accept_amp (i : Instr) (s : State) : (accept i s).amp = s.amp := rfl
@[simp] theorem accept_span (i : Instr) (s : State) : (accept i s).span = s.span := rfl
@[simp] theorem accept_frames (i : Instr) (s : State) : (accept i s).frames = s.frames := rfl
@[simp] theorem accept_enc (i : Instr) (s : State) : (accept i s).enc = s.enc := rfl
@[simp] theorem accept_word (i : Instr) (s : State) : (accept i s).word = s.word := rfl
@[simp] theorem accept_runPol (i : Instr) (s : State) : (accept i s).runPol = s.runPol := rfl
@[simp] theorem accept_abortLatch (i : Instr) (s : State) :
    (accept i s).abortLatch = s.abortLatch := rfl
@[simp] theorem accept_running (i : Instr) (s : State) :
    (accept i s).running = some ⟨i, .start⟩ := rfl
@[simp] theorem accept_smpReady (i : Instr) (s : State) : (accept i s).smpReady = s.smpReady := rfl
@[simp] theorem accept_rst (i : Instr) (s : State) : (accept i s).rst = s.rst := rfl
@[simp] theorem accept_schedule (i : Instr) (s : State) : (accept i s).schedule = s.schedule := rfl
@[simp] theorem accept_sent (i : Instr) (s : State) : (accept i s).sent = s.sent := rfl
@[simp] theorem accept_reads (i : Instr) (s : State) : (accept i s).reads = s.reads := rfl

/-! ### setPhase: progress (R50) -/

@[simp] theorem setPhase_status (i : Instr) (p : Phase) (s : State) :
    (setPhase i p s).status = s.status := rfl
@[simp] theorem setPhase_cause (i : Instr) (p : Phase) (s : State) :
    (setPhase i p s).cause = s.cause := rfl
@[simp] theorem setPhase_irqEn (i : Instr) (p : Phase) (s : State) :
    (setPhase i p s).irqEn = s.irqEn := rfl
@[simp] theorem setPhase_tc (i : Instr) (p : Phase) (s : State) : (setPhase i p s).tc = s.tc := rfl
@[simp] theorem setPhase_rate (i : Instr) (p : Phase) (s : State) :
    (setPhase i p s).rate = s.rate := rfl
@[simp] theorem setPhase_srate (i : Instr) (p : Phase) (s : State) :
    (setPhase i p s).srate = s.srate := rfl
@[simp] theorem setPhase_amp (i : Instr) (p : Phase) (s : State) :
    (setPhase i p s).amp = s.amp := rfl
@[simp] theorem setPhase_span (i : Instr) (p : Phase) (s : State) :
    (setPhase i p s).span = s.span := rfl
@[simp] theorem setPhase_frames (i : Instr) (p : Phase) (s : State) :
    (setPhase i p s).frames = s.frames := rfl
@[simp] theorem setPhase_enc (i : Instr) (p : Phase) (s : State) :
    (setPhase i p s).enc = s.enc := rfl
@[simp] theorem setPhase_word (i : Instr) (p : Phase) (s : State) :
    (setPhase i p s).word = s.word := rfl
@[simp] theorem setPhase_runPol (i : Instr) (p : Phase) (s : State) :
    (setPhase i p s).runPol = s.runPol := rfl
@[simp] theorem setPhase_abortLatch (i : Instr) (p : Phase) (s : State) :
    (setPhase i p s).abortLatch = s.abortLatch := rfl
@[simp] theorem setPhase_running (i : Instr) (p : Phase) (s : State) :
    (setPhase i p s).running = some ⟨i, p⟩ := rfl
@[simp] theorem setPhase_smpReady (i : Instr) (p : Phase) (s : State) :
    (setPhase i p s).smpReady = s.smpReady := rfl
@[simp] theorem setPhase_rst (i : Instr) (p : Phase) (s : State) :
    (setPhase i p s).rst = s.rst := rfl
@[simp] theorem setPhase_schedule (i : Instr) (p : Phase) (s : State) :
    (setPhase i p s).schedule = s.schedule := rfl
@[simp] theorem setPhase_sent (i : Instr) (p : Phase) (s : State) :
    (setPhase i p s).sent = s.sent := rfl
@[simp] theorem setPhase_reads (i : Instr) (p : Phase) (s : State) :
    (setPhase i p s).reads = s.reads := rfl

/-! ### record: recording an error (R303) -/

@[simp] theorem record_status (c : CauseReg) (s : State) :
    (record c s).status = ⟨s.status.done, true, s.status.aborted⟩ := rfl
@[simp] theorem record_cause (c : CauseReg) (s : State) :
    (record c s).cause = if s.status.err then s.cause else c := rfl
@[simp] theorem record_irqEn (c : CauseReg) (s : State) : (record c s).irqEn = s.irqEn := rfl
@[simp] theorem record_tc (c : CauseReg) (s : State) : (record c s).tc = s.tc := rfl
@[simp] theorem record_rate (c : CauseReg) (s : State) : (record c s).rate = s.rate := rfl
@[simp] theorem record_srate (c : CauseReg) (s : State) : (record c s).srate = s.srate := rfl
@[simp] theorem record_amp (c : CauseReg) (s : State) : (record c s).amp = s.amp := rfl
@[simp] theorem record_span (c : CauseReg) (s : State) : (record c s).span = s.span := rfl
@[simp] theorem record_frames (c : CauseReg) (s : State) : (record c s).frames = s.frames := rfl
@[simp] theorem record_enc (c : CauseReg) (s : State) : (record c s).enc = s.enc := rfl
@[simp] theorem record_word (c : CauseReg) (s : State) : (record c s).word = s.word := rfl
@[simp] theorem record_runPol (c : CauseReg) (s : State) : (record c s).runPol = s.runPol := rfl
@[simp] theorem record_abortLatch (c : CauseReg) (s : State) :
    (record c s).abortLatch = s.abortLatch := rfl
@[simp] theorem record_running (c : CauseReg) (s : State) : (record c s).running = s.running := rfl
@[simp] theorem record_smpReady (c : CauseReg) (s : State) :
    (record c s).smpReady = s.smpReady := rfl
@[simp] theorem record_rst (c : CauseReg) (s : State) : (record c s).rst = s.rst := rfl
@[simp] theorem record_schedule (c : CauseReg) (s : State) :
    (record c s).schedule = s.schedule := rfl
@[simp] theorem record_sent (c : CauseReg) (s : State) : (record c s).sent = s.sent := rfl
@[simp] theorem record_reads (c : CauseReg) (s : State) : (record c s).reads = s.reads := rfl

/-! ### raise: raising an error out of a command (R12, R303, R307) -/

@[simp] theorem raise_status (c : Cause) (i : Instr) (s : State) :
    (raise c i s).status = ⟨true, true, s.status.aborted⟩ := rfl
@[simp] theorem raise_cause (c : Cause) (i : Instr) (s : State) :
    (raise c i s).cause = if s.status.err then s.cause else ⟨c, i.op, false, 0#8⟩ := rfl
@[simp] theorem raise_irqEn (c : Cause) (i : Instr) (s : State) :
    (raise c i s).irqEn = s.irqEn := rfl
@[simp] theorem raise_tc (c : Cause) (i : Instr) (s : State) : (raise c i s).tc = s.tc := rfl
@[simp] theorem raise_rate (c : Cause) (i : Instr) (s : State) : (raise c i s).rate = s.rate := rfl
@[simp] theorem raise_srate (c : Cause) (i : Instr) (s : State) :
    (raise c i s).srate = s.srate := rfl
@[simp] theorem raise_amp (c : Cause) (i : Instr) (s : State) : (raise c i s).amp = s.amp := rfl
@[simp] theorem raise_span (c : Cause) (i : Instr) (s : State) : (raise c i s).span = s.span := rfl
@[simp] theorem raise_frames (c : Cause) (i : Instr) (s : State) :
    (raise c i s).frames = s.frames := rfl
@[simp] theorem raise_enc (c : Cause) (i : Instr) (s : State) : (raise c i s).enc = s.enc := rfl
@[simp] theorem raise_word (c : Cause) (i : Instr) (s : State) : (raise c i s).word = s.word := rfl
@[simp] theorem raise_runPol (c : Cause) (i : Instr) (s : State) :
    (raise c i s).runPol = s.runPol := rfl
@[simp] theorem raise_abortLatch (c : Cause) (i : Instr) (s : State) :
    (raise c i s).abortLatch = s.abortLatch := rfl
@[simp] theorem raise_running (c : Cause) (i : Instr) (s : State) :
    (raise c i s).running = none := rfl
@[simp] theorem raise_smpReady (c : Cause) (i : Instr) (s : State) :
    (raise c i s).smpReady = s.smpReady := rfl
@[simp] theorem raise_rst (c : Cause) (i : Instr) (s : State) : (raise c i s).rst = s.rst := rfl
@[simp] theorem raise_schedule (c : Cause) (i : Instr) (s : State) :
    (raise c i s).schedule = s.schedule := rfl
@[simp] theorem raise_sent (c : Cause) (i : Instr) (s : State) : (raise c i s).sent = s.sent := rfl
@[simp] theorem raise_reads (c : Cause) (i : Instr) (s : State) :
    (raise c i s).reads = s.reads := rfl

/-! ### acknowledge: acknowledgement (R308) -/

@[simp] theorem acknowledge_status (v : Word) (s : State) :
    (acknowledge v s).status = s.status.clearOnes v := rfl
@[simp] theorem acknowledge_cause (v : Word) (s : State) :
    (acknowledge v s).cause = s.cause.afterStatusWrite v := rfl
@[simp] theorem acknowledge_irqEn (v : Word) (s : State) : (acknowledge v s).irqEn = s.irqEn := rfl
@[simp] theorem acknowledge_tc (v : Word) (s : State) : (acknowledge v s).tc = s.tc := rfl
@[simp] theorem acknowledge_rate (v : Word) (s : State) : (acknowledge v s).rate = s.rate := rfl
@[simp] theorem acknowledge_srate (v : Word) (s : State) : (acknowledge v s).srate = s.srate := rfl
@[simp] theorem acknowledge_amp (v : Word) (s : State) : (acknowledge v s).amp = s.amp := rfl
@[simp] theorem acknowledge_span (v : Word) (s : State) : (acknowledge v s).span = s.span := rfl
@[simp] theorem acknowledge_frames (v : Word) (s : State) :
    (acknowledge v s).frames = s.frames := rfl
@[simp] theorem acknowledge_enc (v : Word) (s : State) : (acknowledge v s).enc = s.enc := rfl
@[simp] theorem acknowledge_word (v : Word) (s : State) : (acknowledge v s).word = s.word := rfl
@[simp] theorem acknowledge_runPol (v : Word) (s : State) :
    (acknowledge v s).runPol = s.runPol := rfl
@[simp] theorem acknowledge_abortLatch (v : Word) (s : State) :
    (acknowledge v s).abortLatch = s.abortLatch := rfl
@[simp] theorem acknowledge_running (v : Word) (s : State) :
    (acknowledge v s).running = s.running := rfl
@[simp] theorem acknowledge_smpReady (v : Word) (s : State) :
    (acknowledge v s).smpReady = s.smpReady := rfl
@[simp] theorem acknowledge_rst (v : Word) (s : State) : (acknowledge v s).rst = s.rst := rfl
@[simp] theorem acknowledge_schedule (v : Word) (s : State) :
    (acknowledge v s).schedule = s.schedule := rfl
@[simp] theorem acknowledge_sent (v : Word) (s : State) : (acknowledge v s).sent = s.sent := rfl
@[simp] theorem acknowledge_reads (v : Word) (s : State) : (acknowledge v s).reads = s.reads := rfl

/-! ### transfer: a transfer on the port (R87) -/

@[simp] theorem transfer_status (p : PortSample) (s : State) :
    (transfer p s).status = s.status := rfl
@[simp] theorem transfer_cause (p : PortSample) (s : State) : (transfer p s).cause = s.cause := rfl
@[simp] theorem transfer_irqEn (p : PortSample) (s : State) : (transfer p s).irqEn = s.irqEn := rfl
@[simp] theorem transfer_tc (p : PortSample) (s : State) : (transfer p s).tc = s.tc := rfl
@[simp] theorem transfer_rate (p : PortSample) (s : State) : (transfer p s).rate = s.rate := rfl
@[simp] theorem transfer_srate (p : PortSample) (s : State) : (transfer p s).srate = s.srate := rfl
@[simp] theorem transfer_amp (p : PortSample) (s : State) : (transfer p s).amp = s.amp := rfl
@[simp] theorem transfer_span (p : PortSample) (s : State) : (transfer p s).span = s.span := rfl
@[simp] theorem transfer_frames (p : PortSample) (s : State) :
    (transfer p s).frames = s.frames := rfl
@[simp] theorem transfer_enc (p : PortSample) (s : State) : (transfer p s).enc = s.enc := rfl
@[simp] theorem transfer_word (p : PortSample) (s : State) : (transfer p s).word = s.word := rfl
@[simp] theorem transfer_runPol (p : PortSample) (s : State) :
    (transfer p s).runPol = s.runPol := rfl
@[simp] theorem transfer_abortLatch (p : PortSample) (s : State) :
    (transfer p s).abortLatch = s.abortLatch := rfl
@[simp] theorem transfer_running (p : PortSample) (s : State) :
    (transfer p s).running = s.running := rfl
@[simp] theorem transfer_smpReady (p : PortSample) (s : State) :
    (transfer p s).smpReady = s.smpReady := rfl
@[simp] theorem transfer_rst (p : PortSample) (s : State) : (transfer p s).rst = s.rst := rfl
@[simp] theorem transfer_schedule (p : PortSample) (s : State) :
    (transfer p s).schedule = s.schedule := rfl
@[simp] theorem transfer_sent (p : PortSample) (s : State) :
    (transfer p s).sent = p :: s.sent := rfl
@[simp] theorem transfer_reads (p : PortSample) (s : State) : (transfer p s).reads = s.reads := rfl

/-! ### commitPolarity: the commit of ENC.POL (R91) -/

@[simp] theorem commitPolarity_status (s : State) : (commitPolarity s).status = s.status := rfl
@[simp] theorem commitPolarity_cause (s : State) : (commitPolarity s).cause = s.cause := rfl
@[simp] theorem commitPolarity_irqEn (s : State) : (commitPolarity s).irqEn = s.irqEn := rfl
@[simp] theorem commitPolarity_tc (s : State) : (commitPolarity s).tc = s.tc := rfl
@[simp] theorem commitPolarity_rate (s : State) : (commitPolarity s).rate = s.rate := rfl
@[simp] theorem commitPolarity_srate (s : State) : (commitPolarity s).srate = s.srate := rfl
@[simp] theorem commitPolarity_amp (s : State) : (commitPolarity s).amp = s.amp := rfl
@[simp] theorem commitPolarity_span (s : State) : (commitPolarity s).span = s.span := rfl
@[simp] theorem commitPolarity_frames (s : State) : (commitPolarity s).frames = s.frames := rfl
@[simp] theorem commitPolarity_enc (s : State) :
    (commitPolarity s).enc = ⟨s.runPol, s.enc.phase⟩ := rfl
@[simp] theorem commitPolarity_word (s : State) : (commitPolarity s).word = s.word := rfl
@[simp] theorem commitPolarity_runPol (s : State) : (commitPolarity s).runPol = s.runPol := rfl
@[simp] theorem commitPolarity_abortLatch (s : State) :
    (commitPolarity s).abortLatch = s.abortLatch := rfl
@[simp] theorem commitPolarity_running (s : State) : (commitPolarity s).running = s.running := rfl
@[simp] theorem commitPolarity_smpReady (s : State) :
    (commitPolarity s).smpReady = s.smpReady := rfl
@[simp] theorem commitPolarity_rst (s : State) : (commitPolarity s).rst = s.rst := rfl
@[simp] theorem commitPolarity_schedule (s : State) :
    (commitPolarity s).schedule = s.schedule := rfl
@[simp] theorem commitPolarity_sent (s : State) : (commitPolarity s).sent = s.sent := rfl
@[simp] theorem commitPolarity_reads (s : State) : (commitPolarity s).reads = s.reads := rfl

/-! ### advanceTc: the advance of TC (R160) -/

@[simp] theorem advanceTc_status (s : State) : (advanceTc s).status = s.status := rfl
@[simp] theorem advanceTc_cause (s : State) : (advanceTc s).cause = s.cause := rfl
@[simp] theorem advanceTc_irqEn (s : State) : (advanceTc s).irqEn = s.irqEn := rfl
@[simp] theorem advanceTc_tc (s : State) :
    (advanceTc s).tc = TcReg.ofTimecode (advance s.tc.value s.rate) := rfl
@[simp] theorem advanceTc_rate (s : State) : (advanceTc s).rate = s.rate := rfl
@[simp] theorem advanceTc_srate (s : State) : (advanceTc s).srate = s.srate := rfl
@[simp] theorem advanceTc_amp (s : State) : (advanceTc s).amp = s.amp := rfl
@[simp] theorem advanceTc_span (s : State) : (advanceTc s).span = s.span := rfl
@[simp] theorem advanceTc_frames (s : State) : (advanceTc s).frames = s.frames := rfl
@[simp] theorem advanceTc_enc (s : State) : (advanceTc s).enc = s.enc := rfl
@[simp] theorem advanceTc_word (s : State) : (advanceTc s).word = s.word := rfl
@[simp] theorem advanceTc_runPol (s : State) : (advanceTc s).runPol = s.runPol := rfl
@[simp] theorem advanceTc_abortLatch (s : State) : (advanceTc s).abortLatch = s.abortLatch := rfl
@[simp] theorem advanceTc_running (s : State) : (advanceTc s).running = s.running := rfl
@[simp] theorem advanceTc_smpReady (s : State) : (advanceTc s).smpReady = s.smpReady := rfl
@[simp] theorem advanceTc_rst (s : State) : (advanceTc s).rst = s.rst := rfl
@[simp] theorem advanceTc_schedule (s : State) : (advanceTc s).schedule = s.schedule := rfl
@[simp] theorem advanceTc_sent (s : State) : (advanceTc s).sent = s.sent := rfl
@[simp] theorem advanceTc_reads (s : State) : (advanceTc s).reads = s.reads := rfl

/-! ### writeBuiltWord: the built word (R190) -/

@[simp] theorem writeBuiltWord_status (s : State) : (writeBuiltWord s).status = s.status := rfl
@[simp] theorem writeBuiltWord_cause (s : State) : (writeBuiltWord s).cause = s.cause := rfl
@[simp] theorem writeBuiltWord_irqEn (s : State) : (writeBuiltWord s).irqEn = s.irqEn := rfl
@[simp] theorem writeBuiltWord_tc (s : State) : (writeBuiltWord s).tc = s.tc := rfl
@[simp] theorem writeBuiltWord_rate (s : State) : (writeBuiltWord s).rate = s.rate := rfl
@[simp] theorem writeBuiltWord_srate (s : State) : (writeBuiltWord s).srate = s.srate := rfl
@[simp] theorem writeBuiltWord_amp (s : State) : (writeBuiltWord s).amp = s.amp := rfl
@[simp] theorem writeBuiltWord_span (s : State) : (writeBuiltWord s).span = s.span := rfl
@[simp] theorem writeBuiltWord_frames (s : State) : (writeBuiltWord s).frames = s.frames := rfl
@[simp] theorem writeBuiltWord_enc (s : State) : (writeBuiltWord s).enc = s.enc := rfl
@[simp] theorem writeBuiltWord_word (s : State) :
    (writeBuiltWord s).word = buildWord s.tc.value s.rate := rfl
@[simp] theorem writeBuiltWord_runPol (s : State) : (writeBuiltWord s).runPol = s.runPol := rfl
@[simp] theorem writeBuiltWord_abortLatch (s : State) :
    (writeBuiltWord s).abortLatch = s.abortLatch := rfl
@[simp] theorem writeBuiltWord_running (s : State) : (writeBuiltWord s).running = s.running := rfl
@[simp] theorem writeBuiltWord_smpReady (s : State) :
    (writeBuiltWord s).smpReady = s.smpReady := rfl
@[simp] theorem writeBuiltWord_rst (s : State) : (writeBuiltWord s).rst = s.rst := rfl
@[simp] theorem writeBuiltWord_schedule (s : State) :
    (writeBuiltWord s).schedule = s.schedule := rfl
@[simp] theorem writeBuiltWord_sent (s : State) : (writeBuiltWord s).sent = s.sent := rfl
@[simp] theorem writeBuiltWord_reads (s : State) : (writeBuiltWord s).reads = s.reads := rfl

/-! ### writeSpan: the span and the phase (R227) -/

@[simp] theorem writeSpan_status (s : State) : (writeSpan s).status = s.status := rfl
@[simp] theorem writeSpan_cause (s : State) : (writeSpan s).cause = s.cause := rfl
@[simp] theorem writeSpan_irqEn (s : State) : (writeSpan s).irqEn = s.irqEn := rfl
@[simp] theorem writeSpan_tc (s : State) : (writeSpan s).tc = s.tc := rfl
@[simp] theorem writeSpan_rate (s : State) : (writeSpan s).rate = s.rate := rfl
@[simp] theorem writeSpan_srate (s : State) : (writeSpan s).srate = s.srate := rfl
@[simp] theorem writeSpan_amp (s : State) : (writeSpan s).amp = s.amp := rfl
@[simp] theorem writeSpan_span (s : State) :
    (writeSpan s).span = BitVec.ofNat 32 (nextSpan s) := rfl
@[simp] theorem writeSpan_frames (s : State) : (writeSpan s).frames = s.frames := rfl
@[simp] theorem writeSpan_enc (s : State) :
    (writeSpan s).enc =
      ⟨s.enc.pol, BitVec.ofNat 20 (phaseAfter s.enc.phase.toNat s.srate.toNat s.rate)⟩ := rfl
@[simp] theorem writeSpan_word (s : State) : (writeSpan s).word = s.word := rfl
@[simp] theorem writeSpan_runPol (s : State) : (writeSpan s).runPol = s.runPol := rfl
@[simp] theorem writeSpan_abortLatch (s : State) : (writeSpan s).abortLatch = s.abortLatch := rfl
@[simp] theorem writeSpan_running (s : State) : (writeSpan s).running = s.running := rfl
@[simp] theorem writeSpan_smpReady (s : State) : (writeSpan s).smpReady = s.smpReady := rfl
@[simp] theorem writeSpan_rst (s : State) : (writeSpan s).rst = s.rst := rfl
@[simp] theorem writeSpan_schedule (s : State) : (writeSpan s).schedule = s.schedule := rfl
@[simp] theorem writeSpan_sent (s : State) : (writeSpan s).sent = s.sent := rfl
@[simp] theorem writeSpan_reads (s : State) : (writeSpan s).reads = s.reads := rfl

/-! ### clearAbort: the abort latch (R50) -/

@[simp] theorem clearAbort_status (s : State) : (clearAbort s).status = s.status := rfl
@[simp] theorem clearAbort_cause (s : State) : (clearAbort s).cause = s.cause := rfl
@[simp] theorem clearAbort_irqEn (s : State) : (clearAbort s).irqEn = s.irqEn := rfl
@[simp] theorem clearAbort_tc (s : State) : (clearAbort s).tc = s.tc := rfl
@[simp] theorem clearAbort_rate (s : State) : (clearAbort s).rate = s.rate := rfl
@[simp] theorem clearAbort_srate (s : State) : (clearAbort s).srate = s.srate := rfl
@[simp] theorem clearAbort_amp (s : State) : (clearAbort s).amp = s.amp := rfl
@[simp] theorem clearAbort_span (s : State) : (clearAbort s).span = s.span := rfl
@[simp] theorem clearAbort_frames (s : State) : (clearAbort s).frames = s.frames := rfl
@[simp] theorem clearAbort_enc (s : State) : (clearAbort s).enc = s.enc := rfl
@[simp] theorem clearAbort_word (s : State) : (clearAbort s).word = s.word := rfl
@[simp] theorem clearAbort_runPol (s : State) : (clearAbort s).runPol = s.runPol := rfl
@[simp] theorem clearAbort_abortLatch (s : State) : (clearAbort s).abortLatch = false := rfl
@[simp] theorem clearAbort_running (s : State) : (clearAbort s).running = s.running := rfl
@[simp] theorem clearAbort_smpReady (s : State) : (clearAbort s).smpReady = s.smpReady := rfl
@[simp] theorem clearAbort_rst (s : State) : (clearAbort s).rst = s.rst := rfl
@[simp] theorem clearAbort_schedule (s : State) : (clearAbort s).schedule = s.schedule := rfl
@[simp] theorem clearAbort_sent (s : State) : (clearAbort s).sent = s.sent := rfl
@[simp] theorem clearAbort_reads (s : State) : (clearAbort s).reads = s.reads := rfl

/-! ### resetBlock: reset (R340) -/

@[simp] theorem resetBlock_status (s : State) : (resetBlock s).status = State.reset.status := rfl
@[simp] theorem resetBlock_cause (s : State) : (resetBlock s).cause = State.reset.cause := rfl
@[simp] theorem resetBlock_irqEn (s : State) : (resetBlock s).irqEn = State.reset.irqEn := rfl
@[simp] theorem resetBlock_tc (s : State) : (resetBlock s).tc = State.reset.tc := rfl
@[simp] theorem resetBlock_rate (s : State) : (resetBlock s).rate = State.reset.rate := rfl
@[simp] theorem resetBlock_srate (s : State) : (resetBlock s).srate = State.reset.srate := rfl
@[simp] theorem resetBlock_amp (s : State) : (resetBlock s).amp = State.reset.amp := rfl
@[simp] theorem resetBlock_span (s : State) : (resetBlock s).span = State.reset.span := rfl
@[simp] theorem resetBlock_frames (s : State) : (resetBlock s).frames = State.reset.frames := rfl
@[simp] theorem resetBlock_enc (s : State) : (resetBlock s).enc = State.reset.enc := rfl
@[simp] theorem resetBlock_word (s : State) : (resetBlock s).word = State.reset.word := rfl
@[simp] theorem resetBlock_runPol (s : State) : (resetBlock s).runPol = State.reset.runPol := rfl
@[simp] theorem resetBlock_abortLatch (s : State) :
    (resetBlock s).abortLatch = State.reset.abortLatch := rfl
@[simp] theorem resetBlock_running (s : State) : (resetBlock s).running = State.reset.running := rfl
@[simp] theorem resetBlock_smpReady (s : State) : (resetBlock s).smpReady = s.smpReady := rfl
@[simp] theorem resetBlock_rst (s : State) : (resetBlock s).rst = s.rst := rfl
@[simp] theorem resetBlock_schedule (s : State) : (resetBlock s).schedule = s.schedule := rfl
@[simp] theorem resetBlock_sent (s : State) : (resetBlock s).sent = s.sent := rfl
@[simp] theorem resetBlock_reads (s : State) : (resetBlock s).reads = s.reads := rfl

/-! ### popTurn: the schedule (log entry 1) -/

@[simp] theorem popTurn_status (s : State) : (popTurn s).status = s.status := rfl
@[simp] theorem popTurn_cause (s : State) : (popTurn s).cause = s.cause := rfl
@[simp] theorem popTurn_irqEn (s : State) : (popTurn s).irqEn = s.irqEn := rfl
@[simp] theorem popTurn_tc (s : State) : (popTurn s).tc = s.tc := rfl
@[simp] theorem popTurn_rate (s : State) : (popTurn s).rate = s.rate := rfl
@[simp] theorem popTurn_srate (s : State) : (popTurn s).srate = s.srate := rfl
@[simp] theorem popTurn_amp (s : State) : (popTurn s).amp = s.amp := rfl
@[simp] theorem popTurn_span (s : State) : (popTurn s).span = s.span := rfl
@[simp] theorem popTurn_frames (s : State) : (popTurn s).frames = s.frames := rfl
@[simp] theorem popTurn_enc (s : State) : (popTurn s).enc = s.enc := rfl
@[simp] theorem popTurn_word (s : State) : (popTurn s).word = s.word := rfl
@[simp] theorem popTurn_runPol (s : State) : (popTurn s).runPol = s.runPol := rfl
@[simp] theorem popTurn_abortLatch (s : State) : (popTurn s).abortLatch = s.abortLatch := rfl
@[simp] theorem popTurn_running (s : State) : (popTurn s).running = s.running := rfl
@[simp] theorem popTurn_smpReady (s : State) : (popTurn s).smpReady = s.smpReady := rfl
@[simp] theorem popTurn_rst (s : State) : (popTurn s).rst = s.rst := rfl
@[simp] theorem popTurn_schedule (s : State) : (popTurn s).schedule = s.schedule.tail := rfl
@[simp] theorem popTurn_sent (s : State) : (popTurn s).sent = s.sent := rfl
@[simp] theorem popTurn_reads (s : State) : (popTurn s).reads = s.reads := rfl

/-! ### sinkTurn: SMP_READY (R86) -/

@[simp] theorem sinkTurn_status (b : Bool) (s : State) : (sinkTurn b s).status = s.status := rfl
@[simp] theorem sinkTurn_cause (b : Bool) (s : State) : (sinkTurn b s).cause = s.cause := rfl
@[simp] theorem sinkTurn_irqEn (b : Bool) (s : State) : (sinkTurn b s).irqEn = s.irqEn := rfl
@[simp] theorem sinkTurn_tc (b : Bool) (s : State) : (sinkTurn b s).tc = s.tc := rfl
@[simp] theorem sinkTurn_rate (b : Bool) (s : State) : (sinkTurn b s).rate = s.rate := rfl
@[simp] theorem sinkTurn_srate (b : Bool) (s : State) : (sinkTurn b s).srate = s.srate := rfl
@[simp] theorem sinkTurn_amp (b : Bool) (s : State) : (sinkTurn b s).amp = s.amp := rfl
@[simp] theorem sinkTurn_span (b : Bool) (s : State) : (sinkTurn b s).span = s.span := rfl
@[simp] theorem sinkTurn_frames (b : Bool) (s : State) : (sinkTurn b s).frames = s.frames := rfl
@[simp] theorem sinkTurn_enc (b : Bool) (s : State) : (sinkTurn b s).enc = s.enc := rfl
@[simp] theorem sinkTurn_word (b : Bool) (s : State) : (sinkTurn b s).word = s.word := rfl
@[simp] theorem sinkTurn_runPol (b : Bool) (s : State) : (sinkTurn b s).runPol = s.runPol := rfl
@[simp] theorem sinkTurn_abortLatch (b : Bool) (s : State) :
    (sinkTurn b s).abortLatch = s.abortLatch := rfl
@[simp] theorem sinkTurn_running (b : Bool) (s : State) : (sinkTurn b s).running = s.running := rfl
@[simp] theorem sinkTurn_smpReady (b : Bool) (s : State) : (sinkTurn b s).smpReady = b := rfl
@[simp] theorem sinkTurn_rst (b : Bool) (s : State) : (sinkTurn b s).rst = s.rst := rfl
@[simp] theorem sinkTurn_schedule (b : Bool) (s : State) :
    (sinkTurn b s).schedule = s.schedule := rfl
@[simp] theorem sinkTurn_sent (b : Bool) (s : State) : (sinkTurn b s).sent = s.sent := rfl
@[simp] theorem sinkTurn_reads (b : Bool) (s : State) : (sinkTurn b s).reads = s.reads := rfl

/-! ### offer: `Emit`, up to the handshake (R12, R87) -/

@[simp] theorem offer_status (i : Instr) (n : Nat) (s : State) :
    (offer i n s).status =
      s.status := rfl
@[simp] theorem offer_cause (i : Instr) (n : Nat) (s : State) : (offer i n s).cause = s.cause := rfl
@[simp] theorem offer_irqEn (i : Instr) (n : Nat) (s : State) : (offer i n s).irqEn = s.irqEn := rfl
@[simp] theorem offer_tc (i : Instr) (n : Nat) (s : State) : (offer i n s).tc = s.tc := rfl
@[simp] theorem offer_rate (i : Instr) (n : Nat) (s : State) : (offer i n s).rate = s.rate := rfl
@[simp] theorem offer_srate (i : Instr) (n : Nat) (s : State) : (offer i n s).srate = s.srate := rfl
@[simp] theorem offer_amp (i : Instr) (n : Nat) (s : State) : (offer i n s).amp = s.amp := rfl
@[simp] theorem offer_span (i : Instr) (n : Nat) (s : State) : (offer i n s).span = s.span := rfl
@[simp] theorem offer_frames (i : Instr) (n : Nat) (s : State) :
    (offer i n s).frames =
      s.frames := rfl
@[simp] theorem offer_enc (i : Instr) (n : Nat) (s : State) : (offer i n s).enc = s.enc := rfl
@[simp] theorem offer_word (i : Instr) (n : Nat) (s : State) : (offer i n s).word = s.word := rfl
@[simp] theorem offer_runPol (i : Instr) (n : Nat) (s : State) :
    (offer i n s).runPol =
      polarityAt s.word s.span.toNat n s.runPol := rfl
@[simp] theorem offer_abortLatch (i : Instr) (n : Nat) (s : State) :
    (offer i n s).abortLatch =
      s.abortLatch := rfl
@[simp] theorem offer_running (i : Instr) (n : Nat) (s : State) :
    (offer i n s).running =
      some ⟨i, .emit n ⟨sampleValue (polarityAt s.word s.span.toNat n s.runPol) s.amp, n == 0⟩⟩ := rfl
@[simp] theorem offer_smpReady (i : Instr) (n : Nat) (s : State) :
    (offer i n s).smpReady =
      s.smpReady := rfl
@[simp] theorem offer_rst (i : Instr) (n : Nat) (s : State) : (offer i n s).rst = s.rst := rfl
@[simp] theorem offer_schedule (i : Instr) (n : Nat) (s : State) :
    (offer i n s).schedule =
      s.schedule := rfl
@[simp] theorem offer_sent (i : Instr) (n : Nat) (s : State) : (offer i n s).sent = s.sent := rfl
@[simp] theorem offer_reads (i : Instr) (n : Nat) (s : State) : (offer i n s).reads = s.reads := rfl

/-! ### requestAbort: ABORT while a command runs (R276) -/

/-- ABORT while a command runs changes at most the abort latch, which it sets under GENERATE (R276). -/
theorem requestAbort_eq (s : State) :
    requestAbort s =
      { s with abortLatch := s.abortLatch || decide (s.running.map Running.cmd = some .generate) } := by
  obtain ⟨_, _, _, _, _, _, _, _, _, _, _, _, latch, run, _, _, _, _, _⟩ := s
  rcases run with _ | ⟨i, p⟩
  · simp [requestAbort]
  · by_cases h : i = .generate <;> simp [requestAbort, h]

@[simp] theorem requestAbort_status (s : State) :
    (requestAbort s).status = s.status := by
  rw [requestAbort_eq]
@[simp] theorem requestAbort_cause (s : State) :
    (requestAbort s).cause = s.cause := by
  rw [requestAbort_eq]
@[simp] theorem requestAbort_irqEn (s : State) :
    (requestAbort s).irqEn = s.irqEn := by
  rw [requestAbort_eq]
@[simp] theorem requestAbort_tc (s : State) : (requestAbort s).tc = s.tc := by rw [requestAbort_eq]
@[simp] theorem requestAbort_rate (s : State) :
    (requestAbort s).rate = s.rate := by
  rw [requestAbort_eq]
@[simp] theorem requestAbort_srate (s : State) :
    (requestAbort s).srate = s.srate := by
  rw [requestAbort_eq]
@[simp] theorem requestAbort_amp (s : State) :
    (requestAbort s).amp = s.amp := by
  rw [requestAbort_eq]
@[simp] theorem requestAbort_span (s : State) :
    (requestAbort s).span = s.span := by
  rw [requestAbort_eq]
@[simp] theorem requestAbort_frames (s : State) :
    (requestAbort s).frames = s.frames := by
  rw [requestAbort_eq]
@[simp] theorem requestAbort_enc (s : State) :
    (requestAbort s).enc = s.enc := by
  rw [requestAbort_eq]
@[simp] theorem requestAbort_word (s : State) :
    (requestAbort s).word = s.word := by
  rw [requestAbort_eq]
@[simp] theorem requestAbort_runPol (s : State) :
    (requestAbort s).runPol = s.runPol := by
  rw [requestAbort_eq]
@[simp] theorem requestAbort_abortLatch (s : State) :
    (requestAbort s).abortLatch = (s.abortLatch || decide (s.running.map Running.cmd = some .generate)) := by
  rw [requestAbort_eq]
@[simp] theorem requestAbort_running (s : State) :
    (requestAbort s).running = s.running := by
  rw [requestAbort_eq]
@[simp] theorem requestAbort_smpReady (s : State) :
    (requestAbort s).smpReady = s.smpReady := by
  rw [requestAbort_eq]
@[simp] theorem requestAbort_rst (s : State) :
    (requestAbort s).rst = s.rst := by
  rw [requestAbort_eq]
@[simp] theorem requestAbort_schedule (s : State) :
    (requestAbort s).schedule = s.schedule := by
  rw [requestAbort_eq]
@[simp] theorem requestAbort_sent (s : State) :
    (requestAbort s).sent = s.sent := by
  rw [requestAbort_eq]
@[simp] theorem requestAbort_reads (s : State) :
    (requestAbort s).reads = s.reads := by
  rw [requestAbort_eq]

/-! ### Derived values -/

@[simp] theorem complete_busy (s : State) : (complete s).busy = false := rfl
@[simp] theorem accept_busy (i : Instr) (s : State) : (accept i s).busy = true := rfl
@[simp] theorem complete_port (s : State) : (complete s).port = none := rfl
@[simp] theorem resetBlock_port (s : State) : (resetBlock s).port = none := rfl

/-- A sample is on the port exactly while a frame is being emitted (R50 item 4). -/
theorem port_eq_some {s : State} {p : PortSample} :
    s.port = some p ↔ ∃ i n, s.running = some ⟨i, .emit n p⟩ := by
  rw [State.port]
  rcases s.running with _ | ⟨i, _ | ⟨n, q⟩ | _ | _⟩ <;> simp

end Sys2Proof.Laws
end

