-- ==== Sys2Proof/Laws/Ops.lean ====
section
/-! SUPPORT. What the shared operations of the register window can do, said once: which accesses the bus
admits, how the packed registers read as numbers, and what a write can lead to. -/

namespace Sys2Proof.Laws

open Sys2Proof.Machine

/-! ### Decoding and offsets -/

theorem decode_encode (i : Instr) : decode (encode i) = .command i := by cases i <;> decide

theorem rsvdField_toNat (v : Word) : (rsvdField v).toNat = v.toNat / 16 := by
  simp only [rsvdField, BitVec.extractLsb'_toNat, Nat.shiftRight_eq_div_pow]
  omega

theorem opField_toNat (v : Word) : (opField v).toNat = v.toNat % 16 := by
  simp [opField, BitVec.extractLsb'_toNat]

theorem regAt_offsetOf (r : Reg) : regAt (offsetOf r) = some r := by cases r <;> decide

/-- The bus admits a 32-bit access at the offset of each register (R82, R83). -/
theorem admitted_offsetOf (r : Reg) : admitted (offsetOf r) 32 = some r := by cases r <;> decide

/-- An admitted access names a register at its own offset (R82). -/
theorem offset_of_admitted {off : Byte} {width : Nat} {r : Reg} (h : admitted off width = some r) :
    width = 32 ∧ off = offsetOf r := by
  rw [admitted] at h
  split at h
  case isFalse => exact absurd h (by simp)
  case isTrue hw =>
    refine ⟨hw.1, BitVec.eq_of_toNat_eq ?_⟩
    unfold regAt at h
    split at h <;> simp_all <;> subst h <;> decide

/-! ### Packed registers as numbers -/

/-- Concatenation as a sum. -/
theorem toNat_append_eq {n m : Nat} (x : BitVec n) (y : BitVec m) :
    (x ++ y).toNat = x.toNat * 2 ^ m + y.toNat := by
  rw [BitVec.toNat_append, ← Nat.shiftLeft_add_eq_or_of_lt y.isLt, Nat.shiftLeft_eq]

theorem tcPack_toNat (t : TcReg) :
    t.pack.toNat =
      t.frame.toNat + 2 ^ 8 * t.sec.toNat + 2 ^ 16 * t.min.toNat + 2 ^ 24 * t.hour.toNat := by
  simp only [TcReg.pack, BitVec.toNat_cast, toNat_append_eq, BitVec.toNat_ofNat]
  omega

/-- pack of any four numbers: each field modulo its width (R116). -/
theorem tcPack_ofTimecode (t : Timecode) :
    (TcReg.ofTimecode t).pack.toNat =
      t.f % 2 ^ 5 + 2 ^ 8 * (t.s % 2 ^ 6) + 2 ^ 16 * (t.m % 2 ^ 6) + 2 ^ 24 * (t.h % 2 ^ 5) := by
  simp only [tcPack_toNat, TcReg.ofTimecode, BitVec.toNat_ofNat]

theorem causePack_toNat (c : CauseReg) :
    c.pack.toNat = c.code.code.toNat + 2 ^ 4 * c.op.toNat + 2 ^ 8 * c.acc.toNat + 2 ^ 16 * c.offset.toNat := by
  simp only [CauseReg.pack, BitVec.toNat_cast, toNat_append_eq, BitVec.toNat_ofNat, BitVec.toNat_ofBool]
  omega

theorem statusPack_toNat (st : StatusReg) (busy : Bool) :
    (st.pack busy).toNat = busy.toNat + 2 * st.done.toNat + 4 * st.err.toNat + 8 * st.aborted.toNat := by
  simp only [StatusReg.pack, BitVec.toNat_cast, toNat_append_eq, BitVec.toNat_ofNat, BitVec.toNat_ofBool]
  omega

theorem encPack_toNat (e : EncReg) : e.pack.toNat = e.phase.toNat + 2 ^ 31 * e.pol.bit.toNat := by
  simp only [EncReg.pack, BitVec.toNat_cast, toNat_append_eq, BitVec.toNat_ofNat, BitVec.toNat_ofBool]
  omega

/-! ### What a write to a register can do -/

/-- A write to a register other than CMD is ignored, acknowledges, records an error, or stores the
defined bits: the last only in an idle block, IRQ_EN apart (R82, R93). -/
theorem storeReg_cases (r : Reg) (off : Byte) (v : Word) (s : State) :
    storeReg r off v s = s ∨
    (r = .status ∧ storeReg r off v s = acknowledge v s) ∨
    storeReg r off v s = recordAccess .busy off s ∨
    (r = .enc ∧ storeReg r off v s = recordAccess .phaseRange off s) ∨
    ((r = .irqEn ∨ s.busy = false) ∧ (r = .enc → (v.extractLsb' 0 20).toNat < Config.phaseDen) ∧
      storeReg r off v s = writeReg r v s) := by
  unfold storeReg
  split
  · exact .inl rfl
  · exact .inl rfl
  · exact .inr (.inl ⟨rfl, rfl⟩)
  · exact .inr (.inr (.inr (.inr ⟨.inl rfl, by simp, rfl⟩)))
  · split_ifs with hb hp
    · exact .inr (.inr (.inl rfl))
    · exact .inr (.inr (.inr (.inl ⟨hp.1, rfl⟩)))
    · exact .inr (.inr (.inr (.inr ⟨.inr (by simpa using hb), fun h => by
        by_contra hc
        exact hp ⟨h, Nat.not_lt.1 hc⟩, rfl⟩)))

/-- What a write to CMD can do: under a running command the abort latch or a BUSY error, else a command
or an ILLEGAL_CMD error (R112, R113). -/
theorem issue_cases (v : Word) (s : State) :
    (s.busy = true ∧ v = encode .abort ∧ issue v s = .done (requestAbort s)) ∨
    (s.busy = true ∧ v ≠ encode .abort ∧ issue v s = .done (recordCommand .busy (opField v) s)) ∨
    (s.busy = false ∧ (∃ e, decode v = .reject e) ∧
      issue v s = .done (complete (recordCommand .illegalCmd (opField v) s))) ∨
    (s.busy = false ∧ ∃ i, decode v = .command i ∧ issue v s = .accepted i (accept i s)) := by
  unfold issue
  by_cases hb : s.busy = true
  · by_cases hv : v = encode .abort
    · exact .inl ⟨hb, hv, by rw [if_pos hb, if_pos hv]⟩
    · exact .inr (.inl ⟨hb, hv, by rw [if_pos hb, if_neg hv]⟩)
  · have hf : s.busy = false := by simpa using hb
    rw [if_neg hb]
    cases hd : decode v with
    | reject e => exact .inr (.inr (.inl ⟨hf, ⟨e, rfl⟩, rfl⟩))
    | command i => exact .inr (.inr (.inr ⟨hf, i, rfl, rfl⟩))

/-! ### Host programs -/

/-- Everything a line of a host program expands to: 32-bit writes, 32-bit reads and WAIT (R117). -/
theorem mem_expand {l : HostLine} {u : Turn} (h : u ∈ expand l) :
    (∃ off v, u = .host (.write off 32 v)) ∨ (∃ off, u = .host (.read off 32)) ∨ u = .wait := by
  cases l <;>
    simp only [expand, commandTurn, settcTurn, writeTurn, List.mem_cons, List.not_mem_nil, or_false] at h
  case rd => exact .inr (.inl ⟨_, h⟩)
  case wait => exact .inr (.inr h)
  case genseq =>
    rcases h with h | h | h | h | h | h | h <;> first | exact .inr (.inr h) | exact .inl ⟨_, _, h⟩
  all_goals exact .inl ⟨_, _, h⟩

/-- A program without a command line of its own is paced as it stands: GENSEQ brings its own WAITs. -/
theorem expandPaced_eq {p : List HostLine} (h : ∀ i, HostLine.cmd i ∉ p) :
    expandPaced p = expandProgram p := by
  induction p with
  | nil => rfl
  | cons l p ih =>
    have hp := ih fun i hi => h i (List.mem_cons_of_mem l hi)
    have hl : ∀ i, l ≠ .cmd i := fun i e => h i (e ▸ List.mem_cons_self)
    rw [expandPaced, expandProgram] at hp
    rw [expandPaced, expandProgram, List.flatMap_cons, List.flatMap_cons, hp]
    cases l <;> first | rfl | exact absurd rfl (hl _)

end Sys2Proof.Laws
end

