-- ==== Sys2Proof/Laws/Step.lean ====
section
/-! SUPPORT. Steps and runs: a run of the core is a chain of steps, and what a step does when the next
turn is the block's, or the host's write of a command. -/

namespace Sys2Proof.Laws

open Sys2Proof.Machine

/-- `k` steps lead from `s` to `t`. -/
def StepsTo : Nat → State → State → Prop
  | 0, s, t => s = t
  | k + 1, s, t => ∃ u, step s = .next u ∧ StepsTo k u t

theorem StepsTo.one {s t : State} (h : step s = .next t) : StepsTo 1 s t := ⟨t, h, rfl⟩

theorem StepsTo.trans {j k : Nat} {s t u : State} (h : StepsTo j s t) (h' : StepsTo k t u) :
    StepsTo (j + k) s u := by
  induction j generalizing s with
  | zero => cases h; rwa [Nat.zero_add]
  | succ j ih =>
    obtain ⟨v, hv, hs⟩ := h
    rw [Nat.succ_add]
    exact ⟨v, hv, ih hs⟩

theorem StepsTo.run {k : Nat} {s t : State} (h : StepsTo k s t) : core.run k s = .next t := by
  induction k generalizing s with
  | zero => cases h; rfl
  | succ k ih =>
    obtain ⟨u, hu, hs⟩ := h
    simp only [Host.Core.run, core, hu]
    exact ih hs

/-- With nothing scheduled and RST low, a step is the running command's own update. -/
theorem step_running {s : State} {i : Instr} {p : Phase} (hs : s.schedule = []) (hr : s.rst = false)
    (h : s.running = some ⟨i, p⟩) : step s = exec i s := by
  simp [step, hs, coreStep, hr, h]

/-- A host turn is the host's access. -/
theorem step_host {s : State} {a : Access} {rest : List Turn} (hs : s.schedule = .host a :: rest) :
    step s = hostStep a { s with schedule := rest } := by
  simp [step, hs, popTurn]

/-- A read of a register, whether or not RST is high. -/
theorem hostRead_offsetOf (r : Reg) (s : State) :
    hostRead (offsetOf r) 32 s = { s with reads := readReg r s :: s.reads } := by
  simp [hostRead, busRead, admitted_offsetOf]

/-- A bad read: it returns 0, and its error is recorded unless RST is high. -/
theorem hostRead_bad {off : Byte} {width : Nat} (s : State) (h : admitted off width = none) :
    hostRead off width s =
      if s.rst then { s with reads := 0#32 :: s.reads }
      else { recordAccess .badAccess off s with reads := 0#32 :: s.reads } := by
  cases hr : s.rst <;> simp [hostRead, busRead, h, hr, recordAccess, record]

/-- While RST is high a read changes nothing in the block. -/
theorem hostRead_in_reset {s : State} (off : Byte) (width : Nat) (hr : s.rst = true) :
    hostRead off width s = { s with reads := (busRead off width s).1 :: s.reads } := by
  simp [hostRead, hr]

/-- Everything a read can do: it returns a value and changes nothing else, or, with RST low, it is a bad
one, returns 0 and records BAD_ACCESS. -/
theorem hostRead_cases (off : Byte) (width : Nat) (s : State) :
    (∃ v, hostRead off width s = { s with reads := v :: s.reads }) ∨
      (s.rst = false ∧ admitted off width = none ∧
        hostRead off width s = { recordAccess .badAccess off s with reads := 0#32 :: s.reads }) := by
  cases ha : admitted off width with
  | some r =>
    obtain ⟨rfl, rfl⟩ := offset_of_admitted ha
    exact .inl ⟨_, hostRead_offsetOf r s⟩
  | none =>
    by_cases hr : s.rst = true
    · exact .inl ⟨_, hostRead_in_reset off width hr⟩
    · rw [hostRead_bad s ha, if_neg hr]
      exact .inr ⟨by simpa using hr, rfl, rfl⟩

/-- A read turn. -/
theorem hostStep_read {s : State} (r : Reg) :
    hostStep (.read (offsetOf r) 32) s = .next { s with reads := readReg r s :: s.reads } := by
  simp only [hostStep, hostAccess, hostRead_offsetOf]

/-- A write turn to a register other than CMD, with RST low. -/
theorem hostStep_write {s : State} {r : Reg} (v : Word) (hr : s.rst = false) (hc : r ≠ .cmd) :
    hostStep (.write (offsetOf r) 32 v) s = .next (storeReg r (offsetOf r) v s) := by
  cases r <;> first | exact absurd rfl hc | simp [hostStep, hostAccess, hr, busWrite, admitted_offsetOf]

/-- A write turn to CMD of a command's word, the block idle and the next turn its own. -/
theorem hostStep_command {s : State} {v : Word} {i : Instr} (hd : decode v = .command i)
    (hr : s.rst = false) (hi : s.running = none) (hc : coreIsNext s.schedule = true) :
    hostStep (.write (offsetOf .cmd) 32 v) s =
      exec i (useCoreTurn { s with running := some ⟨i, .start⟩ }) := by
  simp [hostStep, hostAccess, hr, busWrite, admitted_offsetOf, issue, State.busy, hi, hd, accept, hc]

/-- The state `withFetchWord` makes, with nothing scheduled after, runs the command. -/
theorem step_withFetchWord (s : State) (i : Instr) (hr : s.rst = false) :
    step (s.withFetchWord 32 (encode i).toNat) = exec i { s with running := some ⟨i, .start⟩ } := by
  have hv : BitVec.ofNat 32 ((encode i).toNat % 2 ^ 32) = encode i := by
    rw [Nat.mod_eq_of_lt (encode i).isLt, BitVec.ofNat_toNat, BitVec.setWidth_eq]
  rw [State.withFetchWord, hv, step_host (a := .write (offsetOf .cmd) 32 (encode i)) rfl,
    hostStep_command (decode_encode i) rfl rfl rfl]
  simp [useCoreTurn, hr]

/-! ### What a step can do -/

/-- The block's own turn: nothing, or the running command's update. -/
theorem coreStep_cases {s t : State} (h : coreStep s = .next t) :
    t = s ∨ (s.rst = false ∧ ∃ r, s.running = some r ∧ exec r.cmd s = .next t) := by
  unfold coreStep at h
  split at h
  · exact .inl (by cases h; rfl)
  · split at h
    · exact .inl (by cases h; rfl)
    · exact .inr ⟨by simp_all, _, by assumption, h⟩

/-- The host's turn: a read; nothing, for a write while RST is high; a write to a register, good or bad; a
write to CMD that is dropped, asks for an abort, or is illegal; or the acceptance of a command, with its
first update where the block has the next turn. -/
theorem hostStep_cases {a : Access} {s t : State} (h : hostStep a s = .next t) :
    (∃ off width, a = .read off width ∧ t = hostRead off width s) ∨
    (s.rst = true ∧ t = s) ∨
    (s.rst = false ∧
      ((∃ off width v, a = .write off width v ∧ admitted off width = none ∧
          t = recordAccess .badAccess off s) ∨
       (∃ r v, r ≠ .cmd ∧ a = .write (offsetOf r) 32 v ∧ t = storeReg r (offsetOf r) v s) ∨
       (∃ v, a = .write (offsetOf .cmd) 32 v ∧
          ((s.busy = true ∧ v = encode .abort ∧ t = requestAbort s) ∨
           (s.busy = true ∧ v ≠ encode .abort ∧ t = recordCommand .busy (opField v) s) ∨
           (s.busy = false ∧ (∃ e, decode v = .reject e) ∧
              t = complete (recordCommand .illegalCmd (opField v) s)) ∨
           (s.busy = false ∧ ∃ i, decode v = .command i ∧
              ((coreIsNext s.schedule = false ∧ t = accept i s) ∨
               (coreIsNext s.schedule = true ∧ exec i (useCoreTurn (accept i s)) = .next t))))))) := by
  cases a with
  | read off width => exact .inl ⟨off, width, rfl, by cases h; rfl⟩
  | write off width v =>
    right
    by_cases hr : s.rst = true
    · simp only [hostStep, hostAccess, hr, if_true] at h
      exact .inl ⟨hr, by cases h; rfl⟩
    · refine .inr ⟨by simpa using hr, ?_⟩
      simp only [hostStep, hostAccess, hr, if_false, Bool.false_eq_true, busWrite] at h
      cases ha : admitted off width with
      | none => exact .inl ⟨off, width, v, rfl, ha, by rw [ha] at h; cases h; rfl⟩
      | some r =>
        right
        obtain ⟨rfl, rfl⟩ := offset_of_admitted ha
        rw [ha] at h
        by_cases hc : r = .cmd
        · subst hc
          refine .inr ⟨v, rfl, ?_⟩
          rcases issue_cases v s with ⟨hb, hv, e⟩ | ⟨hb, hv, e⟩ | ⟨hb, hv, e⟩ | ⟨hb, i, hv, e⟩ <;>
            simp only [e] at h
          · exact .inl ⟨hb, hv, by cases h; rfl⟩
          · exact .inr (.inl ⟨hb, hv, by cases h; rfl⟩)
          · exact .inr (.inr (.inl ⟨hb, hv, by cases h; rfl⟩))
          · refine .inr (.inr (.inr ⟨hb, i, hv, ?_⟩))
            by_cases hn : coreIsNext s.schedule = true
            · exact .inr ⟨hn, by rwa [accept_schedule, if_pos hn] at h⟩
            · rw [accept_schedule, if_neg hn] at h
              exact .inl ⟨by simpa using hn, by cases h; rfl⟩
        · refine .inl ⟨r, v, hc, rfl, ?_⟩
          cases r <;> first | exact absurd rfl hc | (cases h; rfl)

/-- A step is one turn: the block's, the host's, the sink's or the platform's. -/
theorem step_cases {s t : State} (h : step s = .next t) :
    coreStep s = .next t ∨ coreStep (popTurn s) = .next t ∨
    (s.busy = false ∧ t = pollStatus (popTurn s)) ∨
    (∃ ready, t = sinkTurn ready (popTurn s)) ∨ (∃ level, t = rstTurn level (popTurn s)) ∨
    ∃ a, hostStep a (popTurn s) = .next t := by
  unfold step at h
  split at h
  · exact .inl h
  · exact .inr (.inl h)
  · split at h
    · exact .inl h
    · exact .inr (.inr (.inl ⟨by simp_all, by cases h; rfl⟩))
  · exact .inr (.inr (.inr (.inl ⟨_, by cases h; rfl⟩)))
  · exact .inr (.inr (.inr (.inr (.inl ⟨_, by cases h; rfl⟩))))
  · exact .inr (.inr (.inr (.inr (.inr ⟨_, h⟩))))

end Sys2Proof.Laws
end

