-- ==== Sys2Proof/Laws/Emission.lean ====
section
/-! SUPPORT. The emission of a whole frame to a sink that accepts every sample, the same under RENDER,
FRAME and GENERATE. -/

namespace Sys2Proof.Laws

open Sys2Proof.Machine

/-- A command that emits samples, with one on the port, makes the update `emission` describes. -/
theorem exec_emit {s : State} {i : Instr} {n : Nat} {p : PortSample} (hi : emits i = true)
    (h : s.running = some ⟨i, .emit n p⟩) : exec i s = .next (emission i n p s) := by
  cases i <;> first | exact absurd hi Bool.false_ne_true |
    simp [exec, execRender, execFrame, execGenerate, phaseOf, h]

/-- What an update with a sample on the port does: wait, offer the next sample, or end the frame. -/
theorem emission_cases (i : Instr) (n : Nat) (p : PortSample) (s : State) :
    (s.smpReady = false ∧ emission i n p s = s) ∨
    (s.smpReady = true ∧ n + 1 < s.span.toNat ∧ emission i n p s = offer i (n + 1) (transfer p s)) ∨
    (s.smpReady = true ∧ s.span.toNat ≤ n + 1 ∧
      emission i n p s = setPhase i .commit (transfer p s)) := by
  rw [emission]
  by_cases hr : s.smpReady = true
  · by_cases hn : n + 1 < s.span.toNat
    · right; left; simp [hr, hn]
    · right; right; simp [hr, hn]; omega
  · left
    rw [if_neg hr]
    exact ⟨by simpa using hr, rfl⟩

/-- Sample `n` of the frame that `w`, `S`, `a` and the entry polarity `p` describe is on the port, the
sink is ready and nothing is scheduled. -/
structure Emitting (i : Instr) (w : LtcWord) (S : Nat) (a : BitVec 15) (p : Polarity) (n : Nat)
    (s : State) : Prop where
  free : s.schedule = []
  out : s.rst = false
  ready : s.smpReady = true
  word : s.word = w
  span : s.span.toNat = S
  amp : s.amp = a
  running : s.running = some ⟨i, .emit n (frameSample w S a p n)⟩
  pol : s.runPol = halfCellPolarity w p (halfCellOf S n)

/-- From sample `n` on, the sink takes the rest of the frame, one sample a step. -/
theorem emission_steps {i : Instr} {w : LtcWord} {S : Nat} {a : BitVec 15} {p : Polarity}
    (hi : emits i = true) (hS : 160 ≤ S) (k n : Nat) (s : State) (h : Emitting i w S a p n s)
    (hk : n + k + 1 = S) :
    StepsTo (k + 1) s
      { s with
        running := some ⟨i, .commit⟩
        runPol := halfCellPolarity w p 159
        sent := ((List.range' n (k + 1)).map (frameSample w S a p)).reverse ++ s.sent } := by
  have hstep := (step_running h.free h.out h.running).trans (exec_emit hi h.running)
  have hspan := h.span
  have hready := h.ready
  induction k generalizing n s with
  | zero =>
    refine .one (hstep.trans ?_)
    have hl : halfCellOf S n = 159 := by
      refine (halfCellOf_eq_iff S n 159 (by omega)).2 ⟨?_, ?_⟩ <;> unfold boundary <;> omega
    have hp := h.pol
    rw [hl] at hp
    rw [emission, if_pos hready, if_neg (by omega), ← hp]
    rfl
  | succ k ih =>
    refine ⟨_, hstep, ?_⟩
    rw [emission, if_pos hready, if_pos (by omega)]
    have hp : polarityAt s.word s.span.toNat (n + 1) s.runPol =
        halfCellPolarity w p (halfCellOf S (n + 1)) := by
      rw [h.word, h.span, h.pol, polarityAt_succ w S n p hS]
    have hnext : Emitting i w S a p (n + 1) (offer i (n + 1) (transfer (frameSample w S a p n) s)) :=
      { free := h.free, out := h.out, ready := h.ready, word := h.word, span := h.span, amp := h.amp
        running := by
          simp only [offer, setPhase, transfer, hp, h.amp]
          rfl
        pol := hp }
    have hrest := ih (n + 1) _ hnext (by omega)
      ((step_running hnext.free hnext.out hnext.running).trans (exec_emit hi hnext.running))
      hnext.span hnext.ready
    rw [List.range'_succ, List.map_cons, List.reverse_cons, List.append_assoc]
    exact hrest

/-- The first sample that `beginEmission` offers is sample 0 of the frame. -/
theorem beginEmission_emitting (i : Instr) (s : State) (hS : 160 ≤ s.span.toNat) (h1 : s.schedule = [])
    (h2 : s.rst = false) (h3 : s.smpReady = true) :
    Emitting i s.word s.span.toNat s.amp s.enc.pol 0 (beginEmission i s) where
  free := h1
  out := h2
  ready := h3
  word := rfl
  span := rfl
  amp := rfl
  running := by
    simp only [beginEmission, offer, setPhase, polarityAt_zero _ _ _ hS]
    rfl
  pol := polarityAt_zero _ _ _ hS

/-- A frame that begins is emitted whole: the rendering of R222 reaches the sink. -/
theorem beginEmission_steps (i : Instr) (hi : emits i = true) (s : State) (hS : 160 ≤ s.span.toNat)
    (h1 : s.schedule = []) (h2 : s.rst = false) (h3 : s.smpReady = true) :
    StepsTo s.span.toNat (beginEmission i s)
      { s with
        running := some ⟨i, .commit⟩
        runPol := (renderFrame s.word s.span.toNat s.amp s.enc.pol).2
        sent := (renderFrame s.word s.span.toNat s.amp s.enc.pol).1.reverse ++ s.sent } := by
  obtain ⟨k, hk⟩ : ∃ k, s.span.toNat = k + 1 := ⟨s.span.toNat - 1, by omega⟩
  have h := emission_steps hi hS k 0 _ (beginEmission_emitting i s hS h1 h2 h3) (by omega)
  rw [renderFrame_eq _ _ _ _ (by omega), List.range_eq_range']
  rw [← hk] at h
  exact h

end Sys2Proof.Laws
end

