-- ==== Sys2Proof/Laws/Exec.lean ====
section
/-! SUPPORT. One lemma per meaning: what a command's update is, by its progress, in terms of the shared
operations. Provers cite these instead of unfolding `exec`. -/

namespace Sys2Proof.Laws

open Sys2Proof.Machine

/-- Command `i` is not under way: it is not the running command, or it is at its start. -/
theorem phaseOf_start {i : Instr} {s : State}
    (h : s.running = none ∨ s.running = some ⟨i, .start⟩) : phaseOf i s = .start := by
  rcases h with h | h <;> simp [phaseOf, h]

theorem phaseOf_running {i : Instr} {p : Phase} {s : State} (h : s.running = some ⟨i, p⟩) :
    phaseOf i s = p := by
  simp [phaseOf, h]

theorem exec_nop (s : State) : exec .nop s = .next (complete s) := rfl

theorem exec_advance (s : State) :
    exec .advance s = .next (if tcValid s then complete (advanceTc s) else raise .tcRange .advance s) := rfl

theorem exec_build (s : State) :
    exec .build s = .next (if tcValid s then complete (writeBuiltWord s) else raise .tcRange .build s) := rfl

theorem exec_nextspan (s : State) :
    exec .nextspan s =
      .next (if s.srate = 0#32 then raise .srateZero .nextspan s else complete (writeSpan s)) := rfl

theorem exec_segreset (s : State) :
    exec .segreset s = .next (complete { s with enc := EncReg.initial, runPol := Config.initPol }) := rfl

theorem exec_render_start {s : State} (h : phaseOf .render s = .start) :
    exec .render s = .next (if s.span.toNat < Config.minSpan then raise .spanShort .render s
      else beginEmission .render s) := by
  simp only [exec, execRender, h]

theorem exec_render_commit {s : State} (h : s.running = some ⟨.render, .commit⟩) :
    exec .render s = .next (setPhase .render .finish (commitPolarity s)) := by
  simp only [exec, execRender, phaseOf_running h]

theorem exec_render_finish {s : State} (h : s.running = some ⟨.render, .finish⟩) :
    exec .render s = .next (complete s) := by
  simp only [exec, execRender, phaseOf_running h]

theorem exec_frame_fault {s : State} {c : Cause} (h : phaseOf .frame s = .start)
    (hc : frameFault s = some c) : exec .frame s = .next (raise c .frame s) := by
  simp only [exec, execFrame, h, hc]

theorem exec_frame_start {s : State} (h : phaseOf .frame s = .start) (hc : frameFault s = none) :
    exec .frame s = .next (beginFrame .frame s) := by
  simp only [exec, execFrame, h, hc]

theorem exec_frame_commit {s : State} (h : s.running = some ⟨.frame, .commit⟩) :
    exec .frame s = .next (setPhase .frame .finish (endFrame s)) := by
  simp only [exec, execFrame, phaseOf_running h]

theorem exec_frame_finish {s : State} (h : s.running = some ⟨.frame, .finish⟩) :
    exec .frame s = .next (complete s) := by
  simp only [exec, execFrame, phaseOf_running h]

theorem exec_generate_none {s : State} (h : phaseOf .generate s = .start) (hf : s.frames = 0#32) :
    exec .generate s = .next (complete (clearAbort s)) := by
  simp only [exec, execGenerate, h, hf, if_true]

theorem exec_generate_fault {s : State} {c : Cause} (h : phaseOf .generate s = .start)
    (hf : s.frames ≠ 0#32) (hc : frameFault s = some c) :
    exec .generate s = .next (raise c .generate (clearAbort s)) := by
  simp only [exec, execGenerate, h, hf, hc, if_false]

theorem exec_generate_start {s : State} (h : phaseOf .generate s = .start) (hf : s.frames ≠ 0#32)
    (hc : frameFault s = none) : exec .generate s = .next (beginFrame .generate s) := by
  simp only [exec, execGenerate, h, hf, hc, if_false]

theorem exec_generate_commit {s : State} (h : s.running = some ⟨.generate, .commit⟩) :
    exec .generate s = .next (setPhase .generate .finish (endGeneratedFrame s)) := by
  simp only [exec, execGenerate, phaseOf_running h]

theorem exec_generate_finish {s : State} (h : s.running = some ⟨.generate, .finish⟩) :
    exec .generate s = .next (frameBoundary s) := by
  simp only [exec, execGenerate, phaseOf_running h]

/-- The checks of a frame all pass exactly when SRATE is not 0, TC is valid and the span is renderable
(R272). -/
theorem frameFault_eq_none {s : State} :
    frameFault s = none ↔ s.srate ≠ 0#32 ∧ tcValid s = true ∧ Config.minSpan ≤ nextSpan s := by
  unfold frameFault
  split_ifs <;> simp_all

/-- Every meaning gives a next state. -/
theorem exec_next (i : Instr) (s : State) : ∃ t, exec i s = .next t := by
  cases i <;> exact ⟨_, rfl⟩

end Sys2Proof.Laws
end

