-- ==== Sys2Proof/Laws/Errors.lean ====
section
/-! SUPPORT. Which update of a command raises an error, said once: it is decided by `updateFault`, and
`exec` is then `raise`; every other update leaves CAUSE and ERR alone. -/

namespace Sys2Proof.Laws

open Sys2Proof.Machine

/-- The error the next update of command `i` raises, if any (R302, R305). It looks at the operand
registers and the progress, never at STATUS or CAUSE. -/
def updateFault (i : Instr) (s : State) : Option Cause :=
  match i with
  | .nop | .segreset | .abort => none
  | .advance | .build => if tcValid s then none else some .tcRange
  | .nextspan => if s.srate = 0#32 then some .srateZero else none
  | .render =>
    if phaseOf .render s = .start ∧ s.span.toNat < Config.minSpan then some .spanShort else none
  | .frame => if phaseOf .frame s = .start then frameFault s else none
  | .generate => if phaseOf .generate s = .start ∧ s.frames ≠ 0#32 then frameFault s else none

/-- What a raising update raises its error over: GENERATE's completion clears the abort latch. -/
def raisedOver (i : Instr) (s : State) : State := if i = .generate then clearAbort s else s

theorem updateFault_congr {s t : State} (i : Instr) (st : StatusReg) (c : CauseReg)
    (h : t = { s with status := st, cause := c }) : updateFault i t = updateFault i s := by
  subst h; rfl

theorem exec_of_updateFault {i : Instr} {s : State} {c : Cause} (h : updateFault i s = some c) :
    exec i s = .next (raise c i (raisedOver i s)) := by
  cases i <;> simp only [updateFault, reduceCtorEq, Option.ite_none_left_eq_some,
    Option.ite_none_right_eq_some, Option.some.injEq] at h
  case advance => rw [exec_advance, if_neg h.1, ← h.2]; rfl
  case build => rw [exec_build, if_neg h.1, ← h.2]; rfl
  case nextspan => rw [exec_nextspan, if_pos h.1, ← h.2]; rfl
  case render => rw [exec_render_start h.1.1, if_pos h.1.2, ← h.2]; rfl
  case frame => exact exec_frame_fault h.1 h.2
  case generate => exact exec_generate_fault h.1.1 h.1.2 h.2

/-- An emitting update touches neither STATUS nor CAUSE. -/
theorem emission_status_cause (i : Instr) (n : Nat) (p : PortSample) (s : State) :
    (emission i n p s).status = s.status ∧ (emission i n p s).cause = s.cause := by
  rcases emission_cases i n p s with ⟨-, e⟩ | ⟨-, -, e⟩ | ⟨-, -, e⟩ <;> rw [e] <;> exact ⟨rfl, rfl⟩

theorem exec_of_no_updateFault {i : Instr} {s t : State} (h : updateFault i s = none)
    (e : exec i s = .next t) : t.cause = s.cause ∧ t.status.err = s.status.err := by
  have em (n p) : (emission i n p s).cause = s.cause ∧ (emission i n p s).status.err = s.status.err := by
    have := emission_status_cause i n p s
    simp [this]
  cases i with
  | nop => cases e; exact ⟨rfl, rfl⟩
  | segreset => cases e; exact ⟨rfl, rfl⟩
  | advance =>
    rw [exec_advance, if_pos (by simpa [updateFault] using h)] at e
    cases e; exact ⟨rfl, rfl⟩
  | build =>
    rw [exec_build, if_pos (by simpa [updateFault] using h)] at e
    cases e; exact ⟨rfl, rfl⟩
  | nextspan =>
    rw [exec_nextspan, if_neg (by simpa [updateFault] using h)] at e
    cases e; exact ⟨rfl, rfl⟩
  | abort =>
    rcases hr : s.running with _ | ⟨c, p⟩ <;> simp only [exec, execAbort, requestAbort, hr] at e <;>
      injection e with e <;> subst e
    · exact ⟨rfl, rfl⟩
    · split_ifs <;> exact ⟨rfl, rfl⟩
  | render =>
    cases hp : phaseOf .render s <;> simp only [exec, execRender, updateFault, hp] at h e <;>
      injection e with e <;> subst e
    · rw [if_neg (by simpa using h)]; exact ⟨rfl, rfl⟩
    · exact em _ _
    · exact ⟨rfl, rfl⟩
    · exact ⟨rfl, rfl⟩
  | frame =>
    cases hp : phaseOf .frame s <;> simp only [exec, execFrame, updateFault, hp, if_true] at h e <;>
      injection e with e <;> subst e
    · rw [h]; exact ⟨rfl, rfl⟩
    · exact em _ _
    · exact ⟨rfl, rfl⟩
    · exact ⟨rfl, rfl⟩
  | generate =>
    cases hp : phaseOf .generate s <;> simp only [exec, execGenerate, updateFault, hp, true_and] at h e <;>
      injection e with e <;> subst e
    · by_cases hf : s.frames = 0#32
      · rw [if_pos hf]; exact ⟨rfl, rfl⟩
      · rw [if_pos hf] at h
        rw [if_neg hf, h]; exact ⟨rfl, rfl⟩
    · exact em _ _
    · exact ⟨rfl, rfl⟩
    · unfold frameBoundary
      split_ifs <;> exact ⟨rfl, rfl⟩

end Sys2Proof.Laws
end

