-- ==== Sys2Proof/Laws/PerInstr.lean ====
section
/-! SUPPORT. Facts about every command as syntax, one lemma per constructor. -/

namespace Sys2Proof.Laws.CommandWord

/-- The word of a command is a legal command word whose value is its opcode (R110, R111): the reserved
bits are 0 and the opcode is one of the nine. -/
def Statement (i : Instr) : Prop :=
  i.wellFormed = true ∧ wellFormedCommandWord (encode i) = true ∧ rsvdField (encode i) = 0#28 ∧
    (encode i).toNat = i.op.toNat ∧ i.op.toNat < 9

theorem nop : Statement .nop := by unfold Statement; decide
theorem advance : Statement .advance := by unfold Statement; decide
theorem build : Statement .build := by unfold Statement; decide
theorem nextspan : Statement .nextspan := by unfold Statement; decide
theorem render : Statement .render := by unfold Statement; decide
theorem frame : Statement .frame := by unfold Statement; decide
theorem generate : Statement .generate := by unfold Statement; decide
theorem segreset : Statement .segreset := by unfold Statement; decide
theorem abort : Statement .abort := by unfold Statement; decide

end Sys2Proof.Laws.CommandWord
end

