-- ==== Sys2Proof/Laws/Span.lean ====
section
/-! SUPPORT. The span function in one spelling: every quotient over 2L, and its bounds. -/

namespace Sys2Proof.Laws

open Sys2Proof.Machine

theorem period_le (r : RateType) : r.period ≤ 24975 := by cases r <;> decide

theorem spanOf_eq (phase sr : Nat) (r : RateType) :
    spanOf phase sr r =
      (299700 + (phase + sr * r.period)) / 599400 - (299700 + phase) / 599400 := rfl

theorem phaseAfter_eq (phase sr : Nat) (r : RateType) :
    phaseAfter phase sr r = (phase + sr * r.period) % 599400 := rfl

/-- ROUND(n × SR / EXACT(r)) over the common denominator L (R11, R34). -/
theorem roundDiv_exact (n sr : Nat) (r : RateType) :
    roundDiv (n * sr * r.exactDen) r.exactNum = (299700 + n * sr * r.period) / 599400 := by
  cases r <;> simp [roundDiv, RateType.exactNum, RateType.exactDen, RateType.period, Config.phaseDen] <;>
    omega

/-- Shift invariance: whole samples of the start do not change the span (R229). -/
theorem spanOf_shift (a sr : Nat) (r : RateType) : spanOf (a % 599400) sr r = spanOf a sr r := by
  rw [spanOf_eq, spanOf_eq]
  omega

/-- A span fits SPAN (R40). -/
theorem nextSpan_lt (s : State) : nextSpan s < 2 ^ 32 := by
  have h1 := s.srate.isLt
  have h2 := s.enc.phase.isLt
  have h3 : s.srate.toNat * s.rate.period ≤ s.srate.toNat * 24975 := Nat.mul_le_mul_left _ (period_le _)
  rw [nextSpan, spanOf_eq]
  omega

/-- A phase fits PHASE (R42). -/
theorem phaseAfter_lt (phase sr : Nat) (r : RateType) : phaseAfter phase sr r < 599400 :=
  Nat.mod_lt _ (by decide)

end Sys2Proof.Laws
end

