-- ==== Sys2Proof/Laws/Safety.lean ====
section
/-! SUPPORT. Lemmas about the invariant: which fields each part reads, what it says of an idle block,
and that the start of a frame establishes `FrameHeld`. -/

namespace Sys2Proof.Laws

open Sys2Proof.Machine

/-- Two states that hold the same frame: the fields `FrameHeld` and `ProgressOk` read. -/
structure SameFrame (s t : State) : Prop where
  running : t.running = s.running
  runPol : t.runPol = s.runPol
  enc : t.enc = s.enc
  word : t.word = s.word
  span : t.span = s.span
  amp : t.amp = s.amp
  tc : t.tc = s.tc
  rate : t.rate = s.rate
  frames : t.frames = s.frames

theorem frameHeld_congr {i : Instr} {s t : State} (h : FrameHeld i s) (e : SameFrame s t) :
    FrameHeld i t where
  emits := h.emits
  span := by rw [e.span]; exact h.span
  timecode := by
    unfold tcValid
    rw [e.tc, e.rate]
    exact h.timecode
  word := by rw [e.word, e.tc, e.rate]; exact h.word
  frames := by rw [e.frames]; exact h.frames

theorem progressOk_congr {s t : State} (h : ProgressOk s) (e : SameFrame s t) : ProgressOk t := by
  unfold ProgressOk at h ⊢
  rw [e.running, e.runPol, e.enc, e.word, e.span, e.amp]
  rcases hr : s.running with _ | ⟨i, _ | ⟨n, p⟩ | _ | _⟩ <;> rw [hr] at h
  · exact h
  · exact h
  · exact ⟨frameHeld_congr h.1 e, h.2⟩
  · exact ⟨frameHeld_congr h.1 e, h.2⟩
  · exact h

/-- The abort latch is clear unless GENERATE runs (R50 item 2). -/
theorem abortLatch_clear_of_inv {s : State} (h : Inv s) (hg : s.running.map Running.cmd ≠ some .generate) :
    s.abortLatch = false := by
  by_contra hne
  exact hg (h.abort (by simpa using hne))

/-- The running polarity is ENC.POL in an idle block (R50 item 1). -/
theorem runPol_idle_of_inv {s : State} (h : Inv s) (hi : s.running = none) : s.runPol = s.enc.pol := by
  have hp := h.progress
  rw [ProgressOk, hi] at hp
  exact hp

/-- What makes an idle state, out of reset, safe. -/
theorem inv_of_idle {t : State} (phase : t.enc.phase.toNat < Config.phaseDen)
    (clear : t.status.err = false → t.cause = CauseReg.clear)
    (set : t.status.err = true → t.cause.code ≠ .none) (abort : t.abortLatch = false)
    (out : t.rst = false) (idle : t.running = none) (pol : t.runPol = t.enc.pol) : Inv t where
  phase := phase
  causeClear := clear
  causeSet := set
  abort := by rw [abort]; exact fun h => absurd h Bool.false_ne_true
  reset := by rw [out]; exact fun h => absurd h Bool.false_ne_true
  progress := by rw [ProgressOk, idle]; exact pol

/-- NEXTSPAN and the start of a frame leave a phase below L (R42, R228). -/
theorem writeSpan_phase_lt (s : State) : (writeSpan s).enc.phase.toNat < Config.phaseDen := by
  have h := phaseAfter_lt s.enc.phase.toNat s.srate.toNat s.rate
  simp only [writeSpan, BitVec.toNat_ofNat, Config.phaseDen]
  rw [Nat.mod_eq_of_lt (by omega)]
  exact h

/-- A frame whose checks pass is held from its start-of-frame commit on (R272). -/
theorem frameHeld_of_checks {s : State} {i : Instr} (hi : emits i = true) (hc : frameFault s = none)
    (hf : i = .generate → s.frames ≠ 0#32) : FrameHeld i (writeBuiltWord (writeSpan s)) where
  emits := hi
  span := by
    simp only [writeBuiltWord, writeSpan, BitVec.toNat_ofNat]
    rw [Nat.mod_eq_of_lt (nextSpan_lt s)]
    exact (frameFault_eq_none.1 hc).2.2
  timecode := fun _ => (frameFault_eq_none.1 hc).2.1
  word := fun _ => rfl
  frames := hf

end Sys2Proof.Laws
end

