-- ==== Sys2Proof/Laws/Timecode.lean ====
section
/-! SUPPORT. Counting timecodes: the position of a timecode in its day, and the one lemma from which
every count of the carry chain follows, that an advance moves one position on. -/

namespace Sys2Proof.Laws

open Sys2Proof.Machine

/-- TC holds a valid timecode without loss (R36, R116). -/
theorem value_ofTimecode {t : Timecode} {r : RateType} (h : t.valid r = true) :
    (TcReg.ofTimecode t).value = t := by
  obtain ⟨h, m, s, f⟩ := t
  have hdiv : r.div ≤ 30 := by cases r <;> decide
  simp only [Timecode.valid, Bool.and_eq_true, decide_eq_true_eq] at h
  simp only [TcReg.ofTimecode, TcReg.value, BitVec.toNat_ofNat, Timecode.mk.injEq]
  omega

/-- A timecode the carry chain can reach from 00:00:00:00: it is valid, and at the drop-frame rate it is
not one of the labels that are skipped (R33, R162). -/
def Counted (r : RateType) (t : Timecode) : Prop :=
  t.h ≤ 23 ∧ t.m ≤ 59 ∧ t.s ≤ 59 ∧ t.f < r.div ∧
    ¬(r.dropFrame = true ∧ t.s = 0 ∧ t.m % 10 ≠ 0 ∧ t.f < 2)

theorem Counted.valid {r : RateType} {t : Timecode} (ht : Counted r t) : t.valid r = true := by
  obtain ⟨h1, h2, h3, h4, -⟩ := ht
  simp only [Timecode.valid, Bool.and_eq_true, decide_eq_true_eq]
  omega

/-- How many frames of the day come before a counted timecode: at the drop-frame rate an hour has
107892, and a minute 1798 or 1800 (R167). -/
def frameIndex (r : RateType) (t : Timecode) : Nat :=
  if r.dropFrame then t.h * 107892 + t.m * 1798 + 2 * (t.m / 10) + t.s * 30 + t.f
  else ((t.h * 60 + t.m) * 60 + t.s) * r.div + t.f

/-- The frames of a day (R165, R166). -/
def dayLength (r : RateType) : Nat := frameIndex r ⟨24, 0, 0, 0⟩

theorem counted_advance (r : RateType) (t : Timecode) (ht : Counted r t) :
    Counted r (advance t r) ∧ frameIndex r (advance t r) = (frameIndex r t + 1) % dayLength r := by
  obtain ⟨h, m, s, f⟩ := t
  have h9 : m % 10 = 9 → (m + 1) / 10 = m / 10 + 1 := by omega
  have hn9 : m % 10 ≠ 9 → (m + 1) / 10 = m / 10 := by omega
  have h59 : m = 59 → m / 10 = 5 := by omega
  have hle : m ≤ 59 → m / 10 ≤ 5 := by omega
  cases r <;> simp [Counted, RateType.div, RateType.dropFrame, frameIndex, dayLength, advance, firstFrame]
    at ht ⊢
  all_goals
    split_ifs <;> simp_all <;> omega

theorem frameIndex_lt (r : RateType) (t : Timecode) (ht : Counted r t) :
    frameIndex r t < dayLength r := by
  obtain ⟨h, m, s, f⟩ := t
  cases r <;> simp [Counted, RateType.div, RateType.dropFrame, frameIndex, dayLength]
    at ht ⊢ <;> omega

theorem frameIndex_inj (r : RateType) (t u : Timecode) (ht : Counted r t) (hu : Counted r u)
    (e : frameIndex r t = frameIndex r u) : t = u := by
  obtain ⟨h, m, s, f⟩ := t
  obtain ⟨h', m', s', f'⟩ := u
  cases r <;> simp [Counted, RateType.div, RateType.dropFrame, frameIndex] at ht hu e ⊢
  case fps2997 =>
    have hh : h = h' := by omega
    have hm : m = m' := by
      rcases Nat.lt_trichotomy m m' with hl | hl | hl
      · have := Nat.div_le_div_right (c := 10) (Nat.le_of_lt hl)
        omega
      · exact hl
      · have := Nat.div_le_div_right (c := 10) (Nat.le_of_lt hl)
        omega
    omega
  all_goals omega

/-- `k` advances move a counted timecode `k` positions on. -/
theorem counted_iterate (r : RateType) (t : Timecode) (ht : Counted r t) (k : Nat) :
    Counted r ((fun t => advance t r)^[k] t) ∧
      frameIndex r ((fun t => advance t r)^[k] t) % dayLength r = (frameIndex r t + k) % dayLength r := by
  induction k with
  | zero => exact ⟨ht, rfl⟩
  | succ k ih =>
    rw [Function.iterate_succ_apply']
    obtain ⟨hc, e⟩ := counted_advance r _ ih.1
    refine ⟨hc, ?_⟩
    rw [e, Nat.mod_mod, Nat.add_mod, ih.2, ← Nat.add_mod, Nat.add_assoc]

end Sys2Proof.Laws
end

