-- ==== Sys2Proof/Laws/WordBuild.lean ====
section
/-! SUPPORT. Bit-level lemmas of word assembly: what `setBit`, `put` and `putBits` write, how many bits
of a word are set, and which bit of the assembled word each field is. -/

namespace Sys2Proof.Laws

open Sys2Proof.Machine

theorem getLsbD_setBit (w : LtcWord) (k : Nat) (b : Bool) (i : Nat) (hk : k < 80) :
    (setBit w k b).getLsbD i = if i = k then b else w.getLsbD i := by
  have htwo : (BitVec.twoPow 80 k).getLsbD i = decide (i = k) := by
    rw [BitVec.getLsbD_twoPow]
    by_cases h : i = k
    · subst h; simp [hk]
    · simp [h, Ne.symm h]
  unfold setBit
  cases b
  · rw [if_neg Bool.false_ne_true, BitVec.getLsbD_and, BitVec.getLsbD_not, htwo]
    by_cases h : i = k
    · simp [h]
    · by_cases h80 : i < 80
      · simp [h, h80]
      · simp [h, BitVec.getLsbD_of_ge w i (by omega)]
  · rw [if_pos rfl, BitVec.getLsbD_or, htwo]
    by_cases h : i = k <;> simp [h]

theorem getLsbD_put (w : LtcWord) (p n v i : Nat) (h : p + n ≤ 80) :
    (put w p n v).getLsbD i = if p ≤ i ∧ i < p + n then v.testBit (i - p) else w.getLsbD i := by
  induction n with
  | zero => rw [put, if_neg (by omega)]
  | succ n ih =>
    rw [put, getLsbD_setBit _ _ _ _ (by omega), ih (by omega)]
    by_cases h1 : i = p + n
    · subst h1; simp
    · rw [if_neg h1]; congr 1; apply propext; omega

theorem getLsbD_putBits (bs : List Bool) (w : LtcWord) (p i : Nat) (h : p + bs.length ≤ 80) :
    (putBits w p bs).getLsbD i =
      if p ≤ i ∧ i < p + bs.length then bs.getD (i - p) false else w.getLsbD i := by
  induction bs generalizing w p with
  | nil => rw [putBits, if_neg (by rw [List.length_nil]; omega)]
  | cons b bs ih =>
    simp only [List.length_cons] at h
    rw [putBits, ih _ _ (by omega), getLsbD_setBit _ _ _ _ (by omega)]
    by_cases h1 : i = p
    · subst h1; simp
    · by_cases h2 : p + 1 ≤ i ∧ i < p + 1 + bs.length
      · rw [if_pos h2, if_pos (by simp; omega), (by omega : i - p = (i - (p + 1)) + 1)]
        simp
      · rw [if_neg h2, if_neg h1, if_neg (by simp; omega)]

/-- Setting one bit changes the count of set bits by that bit. -/
theorem popcountBelow_setBit (w : LtcWord) (k : Nat) (b : Bool) (hk : k < 80) (n : Nat) :
    popcountBelow (setBit w k b) n + (if k < n then (w.getLsbD k).toNat else 0) =
      popcountBelow w n + (if k < n then b.toNat else 0) := by
  induction n with
  | zero => rfl
  | succ n ih =>
    rw [popcountBelow, popcountBelow, getLsbD_setBit _ _ _ _ hk]
    by_cases h : n = k
    · subst h; simp at ih ⊢; omega
    · have : (k < n + 1) ↔ k < n := by omega
      simp only [this, if_neg h]; split_ifs at * <;> omega

/-- `get` reads the number whose bits stand at the positions it is given. -/
theorem get_eq_mod (w : LtcWord) (p n v : Nat) (h : ∀ i, i < n → w.getLsbD (p + i) = v.testBit i) :
    Machine.get w p n = v % 2 ^ n := by
  induction n with
  | zero => simp [Machine.get, Nat.mod_one]
  | succ n ih =>
    rw [Machine.get, ih (fun i hi => h i (by omega)), h n (by omega), Nat.testBit_eq_decide_div_mod_eq,
      pow_succ, Nat.mod_mul]
    rcases Nat.mod_two_eq_zero_or_one (v / 2 ^ n) with h | h <;> simp [h]

/-- Which bit of the assembled word, before the parity bit, each field's bit is (R118). -/
theorem getLsbD_wordFields (t : Timecode) (r : RateType) (i : Nat) :
    (wordFields t r).getLsbD i =
      if 64 ≤ i ∧ i < 80 then Config.syncBits.getD (i - 64) false
      else if 56 ≤ i ∧ i < 58 then (t.h / 10).testBit (i - 56)
      else if 48 ≤ i ∧ i < 52 then (t.h % 10).testBit (i - 48)
      else if 40 ≤ i ∧ i < 43 then (t.m / 10).testBit (i - 40)
      else if 32 ≤ i ∧ i < 36 then (t.m % 10).testBit (i - 32)
      else if 24 ≤ i ∧ i < 27 then (t.s / 10).testBit (i - 24)
      else if 16 ≤ i ∧ i < 20 then (t.s % 10).testBit (i - 16)
      else if i = 10 then r.dropFrame
      else if 8 ≤ i ∧ i < 10 then (t.f / 10).testBit (i - 8)
      else if 0 ≤ i ∧ i < 4 then (t.f % 10).testBit (i - 0)
      else false := by
  simp only [wordFields, Config.syncPos, Config.dropFramePos]
  rw [getLsbD_putBits _ _ _ _ (by decide), getLsbD_put _ _ _ _ _ (by decide),
    getLsbD_put _ _ _ _ _ (by decide), getLsbD_put _ _ _ _ _ (by decide),
    getLsbD_put _ _ _ _ _ (by decide), getLsbD_put _ _ _ _ _ (by decide),
    getLsbD_put _ _ _ _ _ (by decide), getLsbD_setBit _ _ _ _ (by decide),
    getLsbD_put _ _ _ _ _ (by decide), getLsbD_put _ _ _ _ _ (by decide)]
  simp only [BitVec.getLsbD_zero]
  rfl

theorem getLsbD_buildWord (t : Timecode) (r : RateType) (i : Nat) :
    (buildWord t r).getLsbD i =
      if i = 27 then decide (popcount (wordFields t r) % 2 = 1) else (wordFields t r).getLsbD i := by
  rw [buildWord, getLsbD_setBit _ _ _ _ (by decide)]
  rfl

theorem wordFields_parity_clear (t : Timecode) (r : RateType) : (wordFields t r).getLsbD 27 = false := by
  rw [getLsbD_wordFields]; rfl

end Sys2Proof.Laws
end

