-- ==== Sys2Proof/Tests/Slice0.lean ====
section
/-! SUPPORT. Tests. Every expected value is from spec/: the encodings of 30_encoding.md, or a row of
95_test_vectors.md, which each test names. Then the witnesses: for each statement with hypotheses, a
state and operands that meet them, each clause at a boundary of its range. -/

namespace Sys2Proof.Tests

open Sys2Proof.Machine Sys2Proof.Statements

/-! ### Ill-formed terms are refused -/

theorem test_wf_refuses_reserved_bit : wellFormedCommandWord 0x00000015#32 = false := by decide
theorem test_wf_refuses_reserved_opcode : wellFormedCommandWord 0x00000009#32 = false := by decide
theorem test_wf_refuses_narrow_read : Access.wellFormed (.read 0x14#8 8) = false := by decide
theorem test_wf_refuses_misaligned_read : Access.wellFormed (.read 0x16#8 32) = false := by decide
theorem test_wf_refuses_unmapped_read : Access.wellFormed (.read 0x3C#8 32) = false := by decide
theorem test_wf_refuses_narrow_write : Access.wellFormed (.write 0x14#8 16 0#32) = false := by decide
theorem test_wf_refuses_misaligned_write : Access.wellFormed (.write 0x15#8 32 0#32) = false := by decide
theorem test_wf_refuses_unmapped_write : Access.wellFormed (.write 0xFC#8 32 0#32) = false := by decide
theorem test_wf_refuses_wide_value : HostLine.wellFormed (.wr (.reg .tc) (2 ^ 32)) = false := by decide
theorem test_wf_refuses_wide_hour : HostLine.wellFormed (.settc 100 0 0 0) = false := by decide
theorem test_wf_refuses_wide_minute : HostLine.wellFormed (.settc 0 100 0 0) = false := by decide
theorem test_wf_refuses_wide_second : HostLine.wellFormed (.settc 0 0 100 0) = false := by decide
theorem test_wf_refuses_wide_frame : HostLine.wellFormed (.settc 0 0 0 100) = false := by decide
theorem test_wf_refuses_genseq_rate : HostLine.wellFormed (.genseq 0 0 0 0 (2 ^ 32) 1) = false := by decide
theorem test_wf_refuses_genseq_frames : HostLine.wellFormed (.genseq 0 0 0 0 1 (2 ^ 32)) = false := by
  decide
theorem test_wf_accepts : HostLine.wellFormed (.genseq 1 23 45 12 1 2) = true ∧
    Access.wellFormed (.write 0x38#8 32 0xFFFFFFFF#32) = true ∧
    wellFormedCommandWord 0x00000008#32 = true := by decide

/-! ### Decoding: the words of rule R111, written as RSVD (bits 31:4) and OP (bits 3:0) -/

theorem test_decode_nop : decode (0#28 ++ 0b0000#4 : BitVec 32) = .command .nop := by decide
theorem test_decode_advance : decode (0#28 ++ 0b0001#4 : BitVec 32) = .command .advance := by decide
theorem test_decode_build : decode (0#28 ++ 0b0010#4 : BitVec 32) = .command .build := by decide
theorem test_decode_nextspan : decode (0#28 ++ 0b0011#4 : BitVec 32) = .command .nextspan := by decide
theorem test_decode_render : decode (0#28 ++ 0b0100#4 : BitVec 32) = .command .render := by decide
theorem test_decode_frame : decode (0#28 ++ 0b0101#4 : BitVec 32) = .command .frame := by decide
theorem test_decode_generate : decode (0#28 ++ 0b0110#4 : BitVec 32) = .command .generate := by decide
theorem test_decode_segreset : decode (0#28 ++ 0b0111#4 : BitVec 32) = .command .segreset := by decide
theorem test_decode_abort : decode (0#28 ++ 0b1000#4 : BitVec 32) = .command .abort := by decide
theorem test_decode_reserved : decode (0#28 ++ 0b1001#4 : BitVec 32) = .reject .reservedOpcode ∧
    decode (1#28 ++ 0b0101#4 : BitVec 32) = .reject .reservedBits ∧
    decodeBytes [0#8] = .reject .notOneWord := by decide
/-- Little-endian bytes (R84): the opcode is in the byte at the lowest address. -/
theorem test_decode_bytes : decodeBytes [0x06#8, 0x00#8, 0x00#8, 0x00#8] = .command .generate ∧
    decodeBytes [0x00#8, 0x00#8, 0x00#8, 0x06#8] = .reject .reservedBits := by decide
theorem test_decodeTableWord : decodeTableWord 32 0x00000004 = some .render ∧
    decodeTableWord 8 0x08 = some .abort ∧ decodeTableWord 32 0x80000000 = none := by decide

/-! ### The commands, one step each -/

/-- The value register `r` reads after a step. -/
def regAfter (r : Reg) (o : Host.Outcome State Fault Refusal) : Option Word :=
  match o with
  | .next t => some (readReg r t)
  | .fault _ => none
  | .refused _ => none

/-- The sample on the port after a step. -/
def portAfter (o : Host.Outcome State Fault Refusal) : Option PortSample :=
  match o with
  | .next t => t.port
  | .fault _ => none
  | .refused _ => none

/-- Reset, then TC and RATE written. -/
def withTc (tc : Word) (r : RateType) : State := { State.reset with tc := TcReg.unpack tc, rate := r }

/-- The step in which the host writes command word `w` and the block runs it. -/
def run (w : Nat) (s : State) : Host.Outcome State Fault Refusal := step (s.withFetchWord 32 w)

/-- T-NOP row 1. -/
theorem test_nop_sets_done : regAfter .status (run 0x0 State.reset) = some 0x00000002#32 := by decide

/-- T-ADV row 7. -/
theorem test_advance_skips_at_drop_frame_minute :
    regAfter .tc (run 0x1 (withTc 0x00003B1D#32 .fps2997)) = some 0x00010002#32 := by decide
/-- T-ADV row 22. -/
theorem test_advance_out_of_range :
    regAfter .cause (run 0x1 (withTc 0x00000018#32 .fps24)) = some 0x00000013#32 := by decide

/-- T-BLD row 17: parity bit 1, drop-frame flag 1. -/
theorem test_build_word0 :
    regAfter .word0 (run 0x2 (withTc 0x00003B1D#32 .fps2997)) = some 0x0D090609#32 := by
  decide +kernel
/-- T-BLD row 8: the widest hours, minutes and seconds, and the sync word. -/
theorem test_build_word1_word2 :
    regAfter .word1 (run 0x2 (withTc 0x173B3B1D#32 .fps30)) = some 0x02030509#32 ∧
    regAfter .word2 (run 0x2 (withTc 0x173B3B1D#32 .fps30)) = some 0x0000BFFC#32 := by decide +kernel

/-- T-SPAN row 2, second issue: phase 360600 before. -/
theorem test_nextspan_carries_phase :
    regAfter .span (run 0x3 { State.reset with rate := .fps2997, enc := ⟨.minus, 360600#20⟩ }) =
      some 1601#32 ∧
    regAfter .enc (run 0x3 { State.reset with rate := .fps2997, enc := ⟨.minus, 360600#20⟩ }) =
      some 0x8001DBC8#32 := by decide +kernel
/-- T-SPAN row 4: an exact half rounds up. -/
theorem test_nextspan_tie :
    regAfter .span (run 0x3 { State.reset with srate := 44100#32 }) = some 1838#32 := by decide +kernel

/-- T-RND row 17: the first sample is 0xC000, marked start-of-frame. -/
theorem test_render_first_sample :
    portAfter (run 0x4 { State.reset with span := 1920#32 }) = some ⟨0xC000#16, true⟩ := by
  decide +kernel
/-- T-RND row 20. -/
theorem test_render_short_span :
    regAfter .cause (run 0x4 { State.reset with span := 159#32 }) = some 0x00000045#32 := by decide

/-- The signs of a rendering, true for `+`. -/
def signs (w : LtcWord) (S : Nat) (p : Polarity) : List Bool :=
  (renderFrame w S 16384#15 p).1.map fun x => x.data == 0x4000#16

/-- T-RND rows 10 and 15: the signs round bit 27, which is 1, and the exit polarity of an odd word. -/
theorem test_render_signs :
    ((signs 0xBFFC0000000008000000#80 160 .plus).drop 48).take 12 =
      [false, false, true, true, false, false, true, false, true, true, false, false] ∧
    (renderFrame 0x00000000000000000001#80 160 16384#15 .plus).2 = .minus := by decide +kernel

/-- T-FRM row 3: FRAME from the reset state commits the span of its frame. -/
theorem test_frame_start_commit :
    regAfter .span (run 0x5 State.reset) = some 0x000007D0#32 ∧
    regAfter .word0 (run 0x5 State.reset) = some 0x08000000#32 := by decide +kernel
/-- T-FRM row 11. -/
theorem test_frame_span_short :
    regAfter .cause (run 0x5 { State.reset with srate := 4000#32, rate := .fps30 }) =
      some 0x00000055#32 := by decide +kernel

/-- T-GEN row 8. -/
theorem test_generate_no_frames : regAfter .status (run 0x6 State.reset) = some 0x00000002#32 ∧
    regAfter .span (run 0x6 State.reset) = some 0x00000000#32 := by decide
/-- T-GEN row 12. -/
theorem test_generate_span_short :
    regAfter .cause (run 0x6 { State.reset with srate := 4000#32, rate := .fps30, frames := 5#32 }) =
      some 0x00000065#32 := by decide +kernel

/-- T-SEG row 1. -/
theorem test_segreset_clears_enc :
    regAfter .enc (run 0x7 { State.reset with enc := ⟨.minus, 360600#20⟩, runPol := .minus }) =
      some 0x00000000#32 := by decide

/-- T-ABT row 1. -/
theorem test_abort_idle : regAfter .status (run 0x8 State.reset) = some 0x00000002#32 := by decide

/-- T-BUS row 15. -/
theorem test_write_tc_drops_reserved_bits :
    regAfter .tc (step { State.reset with schedule := [writeTurn .tc 0xFFFFFFFF#32] }) =
      some 0x1F3F3F1F#32 := by decide
/-- T-BUS rows 10 and 11: phase 599400 is refused, 599399 is stored. -/
theorem test_write_enc_phase_bound :
    regAfter .cause (step { State.reset with schedule := [writeTurn .enc 0x00092568#32] }) =
      some 0x002C0106#32 ∧
    regAfter .enc (step { State.reset with schedule := [writeTurn .enc 0x80092567#32] }) =
      some 0x80092567#32 := by decide
/-- T-BUS row 7. -/
theorem test_read_unmapped :
    regAfter .cause (step { State.reset with schedule := [.host (.read 0x3C#8 32)] }) =
      some 0x003C0107#32 := by decide
/-- T-ISS row 2. -/
theorem test_illegal_word :
    regAfter .cause (step { State.reset with schedule := [writeTurn .cmd 0x00000015#32] }) =
      some 0x00000051#32 := by decide

/-- SMP_DATA[7:0] comes first (R88). -/
theorem test_sample_bytes : sampleBytes 0xC001#16 = [0x01#8, 0xC0#8] := by decide

/-- R116: pack selects the low bits of each field, here 99 mod 64 = 0x23 of the minutes, and the hours
stay 0. -/
theorem test_expand_settc_selects_bits :
    expand (.settc 0 99 0 0) = [.host (.write 0x14#8 32 0x00230000#32)] := by decide

/-- `RD 0x3C` of program P5 is `R 0x3C`. -/
theorem test_expand_read_of_offset : expand (.rd (.offset 0x3C#8)) = [.host (.read 0x3C#8 32)] ∧
    expand (.rd (.reg .cause)) = [.host (.read 0x0C#8 32)] ∧
    expand (.wr (.reg .cmd) 0x15) = [.host (.write 0x04#8 32 0x00000015#32)] := by decide

/-- GENSEQ 01:23:45:12, 1, 2 expands to the seven accesses of program P3. -/
theorem test_expand_genseq : expand (.genseq 1 23 45 12 1 2) =
    [.host (.write 0x14#8 32 0x01172D0C#32), .host (.write 0x18#8 32 0x00000001#32),
     .host (.write 0x28#8 32 0x00000002#32), .host (.write 0x04#8 32 0x00000007#32), .wait,
     .host (.write 0x04#8 32 0x00000006#32), .wait] := by decide

/-- R277's sequence has no WAIT between SEGRESET and GENERATE; paced, SEGRESET completes before the write
that issues GENERATE. -/
theorem test_expandPaced : expandPaced [.cmd .segreset, .cmd .generate] =
    [.host (.write 0x04#8 32 0x00000007#32), .wait, .host (.write 0x04#8 32 0x00000006#32), .wait] ∧
    expandProgram [.cmd .segreset, .cmd .generate] =
      [.host (.write 0x04#8 32 0x00000007#32), .host (.write 0x04#8 32 0x00000006#32)] := by decide

/-! ### Witnesses -/

/-- The block with a command under way. -/
def busyWith (i : Instr) (p : Phase) : State := { State.reset with running := some ⟨i, p⟩ }

/-- The block while RST is high. -/
def inReset : State := { State.reset with rst := true }

/-- A RENDER whose span is too short, with an earlier error not yet acknowledged. -/
def erred : State :=
  { busyWith .render .start with
    status := ⟨false, true, false⟩
    cause := ⟨.badAccess, 0#4, true, 0x3C#8⟩ }

/-- RENDER with the first sample of a 160-sample frame of the all-zero word on the port. -/
def rendering : State :=
  { State.reset with
    span := 160#32
    runPol := .minus
    running := some ⟨.render, .emit 0 ⟨0xC000#16, true⟩⟩ }

theorem rendering_inv (ready : Bool) : Inv { rendering with smpReady := ready } where
  phase := by decide +revert
  causeClear := fun _ => rfl
  causeSet := fun h => absurd h Bool.false_ne_true
  abort := fun h => absurd h Bool.false_ne_true
  reset := fun h => absurd h Bool.false_ne_true
  progress :=
    ⟨⟨rfl, by decide +revert, fun h => absurd rfl h, fun h => absurd rfl h, fun h => by cases h⟩,
      by decide +revert, by decide +revert, by decide +revert⟩

/-- An idle, ready block with a valid TC, 3 frames asked for, and a phase. -/
def generating : State :=
  { State.reset with tc := ⟨0#5, 0#6, 59#6, 28#5⟩, rate := .fps2997, frames := 3#32, span := 160#32 }

theorem generating_inv : Inv generating :=
  Laws.inv_of_idle (by decide) (fun _ => rfl) (fun h => absurd h Bool.false_ne_true) rfl rfl rfl rfl

theorem generating_ready : IdleReady generating := ⟨rfl, rfl, rfl, rfl⟩

theorem witness_DecodeRejectsReservedWords :
    (0x00000010#32).toNat / 16 ≠ 0 ∧ (0xFFFFFFFF#32).toNat / 16 ≠ 0 ∧
    (9 ≤ (0x9#32).toNat ∧ (0x9#32).toNat < 16) ∧ (9 ≤ (0xF#32).toNat ∧ (0xF#32).toNat < 16) ∧
    (0x8#32).toNat < 9 := by decide

theorem witness_CmdWriteAcceptsLegalCommand : State.reset.rst = false ∧ State.reset.running = none ∧
    coreIsNext [.host (.read 0x08#8 32)] = false := by decide

theorem witness_StepRunsDecodedCommand : decode 0x00000005#32 = .command .frame ∧
    State.reset.rst = false ∧ State.reset.running = none := by decide

theorem witness_CoreTurnRunsRunningCommand :
    (busyWith .frame .start).rst = false ∧ (busyWith .frame .start).running = some ⟨.frame, .start⟩ ∧
    (busyWith .frame .start).schedule = [] ∧
    ({ busyWith .frame .start with schedule := [.core] } : State).schedule = .core :: [] ∧
    ({ busyWith .frame .start with schedule := [.wait] } : State).schedule = .wait :: [] := by decide

theorem witness_IllegalWordRaisesIllegalCmd : State.reset.rst = false ∧ State.reset.running = none ∧
    (0x00000010#32 : Word).extractLsb' 4 28 ≠ 0#28 ∧ 9 ≤ ((0x00000009#32 : Word).extractLsb' 0 4).toNat := by
  decide

theorem witness_AbortWordWhileBusy : (busyWith .generate .finish).rst = false ∧
    (busyWith .generate .finish).running = some ⟨.generate, .finish⟩ ∧
    (busyWith .render .commit).running = some ⟨.render, .commit⟩ := by decide

theorem witness_BadAccessRecordsBadAccess : State.reset.rst = false ∧ (8 ≠ 32 ∧ 64 ≠ 32) ∧
    (0x39#8).toNat % 4 ≠ 0 ∧ 0x3C ≤ (0x3C#8).toNat ∧ 0x3C ≤ (0xFC#8).toNat := by decide

theorem witness_ReadReturnsRegisterWithoutSideEffect : State.reset.running = none ∧
    (0x00#8, Reg.id) ∈ registerMap ∧ (0x38#8, Reg.word2) ∈ registerMap := by decide

/-- R54, R340: while RST is high a read of SRATE returns its reset value, a bad read 0 without an error,
and a write is lost. -/
theorem test_accesses_in_reset :
    hostStep (.read 0x1C#8 32) inReset = .next { inReset with reads := [0x0000BB80#32] } ∧
    hostStep (.read 0x3C#8 32) inReset = .next { inReset with reads := [0#32] } ∧
    hostStep (.write 0x1C#8 32 1#32) inReset = .next inReset := ⟨rfl, rfl, rfl⟩

theorem witness_ReservedBitsReadZeroAndIgnoreWrites : State.reset.rst = false ∧ Reg.id ≠ Reg.cmd ∧
    State.reset.running = none ∧ 0x00000010#32 &&& reservedBits .cmd ≠ 0#32 := by decide

theorem witness_WriteThenReadReturnsDefinedBits : State.reset.rst = false ∧
    (Reg.enc ∈ guarded ∧ State.reset.running = none) ∧
    ((0x80092567#32 : Word).extractLsb' 0 20).toNat < 599400 ∧
    (busyWith .frame .start).rst = false ∧ (Reg.irqEn = .irqEn ∧ Reg.irqEn ≠ .enc) := by decide

theorem witness_WritesWhileBusy : (busyWith .frame .start).rst = false ∧
    (busyWith .frame .start).running = some ⟨.frame, .start⟩ ∧ Reg.word2 ∈ guarded ∧
    0x00000009#32 ≠ 0x00000008#32 := by decide

theorem witness_EncWriteWithPhaseTooLargeIsRefused : State.reset.rst = false ∧
    State.reset.running = none ∧ 599400 ≤ ((0x00092568#32 : Word).extractLsb' 0 20).toNat := by decide

theorem witness_WritesToIdAndCauseAreIgnored : (busyWith .frame .start).rst = false := by decide

theorem witness_StatusWriteAcknowledges :
    ({ State.reset with status := ⟨true, true, true⟩ } : State).rst = false := by decide

theorem witness_FirstErrorIsRecordedAndKept : State.reset.status.err = false ∧
    ({ State.reset with status := ⟨false, true, false⟩ } : State).status.err = true := by decide

/-- Frame 29 is the last valid one at rate 2, frame 30 the first invalid one. -/
theorem witness_AdvanceWritesAdvancedTimecode :
    (withTc 0x173B3B1D#32 .fps2997).tc.value.valid .fps2997 = true ∧
    (withTc 0x0000001E#32 .fps2997).tc.value.valid .fps2997 = false := by decide

theorem witness_AdvanceIsTheCarryChain :
    (Timecode.valid ⟨0, 9, 59, 28⟩ .fps2997 = true ∧ 28 + 1 < RateType.fps2997.div) ∧
    (Timecode.valid ⟨0, 9, 58, 29⟩ .fps2997 = true ∧ 29 + 1 = RateType.fps2997.div ∧ 58 < 59) ∧
    (Timecode.valid ⟨0, 58, 59, 29⟩ .fps2997 = true ∧ 58 < 59) ∧
    Timecode.valid ⟨23, 59, 59, 29⟩ .fps2997 = true := by decide

theorem witness_AdvanceKeepsTimecodeValid : Timecode.valid ⟨23, 59, 59, 23⟩ .fps24 = true ∧
    (withTc 0x173B3B17#32 .fps24).tc.value.valid (withTc 0x173B3B17#32 .fps24).rate = true ∧
    (∃ t, exec .advance (withTc 0x173B3B17#32 .fps24) = .next t) ∧
    ({ withTc 0x173B3B17#32 .fps24 with running := some ⟨.frame, .commit⟩ } : State).tc.value.valid .fps24 =
      true ∧
    (∃ t, exec .frame { withTc 0x173B3B17#32 .fps24 with running := some ⟨.frame, .commit⟩ } = .next t) ∧
    ∃ t, exec .generate { withTc 0x173B3B17#32 .fps24 with running := some ⟨.generate, .commit⟩ } = .next t :=
  ⟨by decide, by decide, ⟨_, rfl⟩, by decide, ⟨_, rfl⟩, _, rfl⟩

theorem witness_AdvanceCycleClosure : 0 < 2589407 ∧ 2589407 < framesPerDay .fps2997 := by decide

theorem witness_DropFrameCounts : 23 < 24 ∧ (50 < 60 ∧ 50 % 10 = 0) ∧ (40 < 60 ∧ 40 % 10 = 0) := by decide

theorem witness_BuildWritesBuiltWord :
    (withTc 0x173B3B18#32 .fps25).tc.value.valid .fps25 = true ∧
    (withTc 0x00000019#32 .fps25).tc.value.valid .fps25 = false := by decide

theorem witness_BuiltWordHasEvenParity : Timecode.valid ⟨23, 59, 59, 29⟩ .fps2997 = true := by decide

theorem witness_BuiltWordFixedBits : 63 ∈ [4, 5, 6, 7, 11, 12, 13, 14, 15, 20, 21, 22, 23, 28, 29, 30, 31,
    36, 37, 38, 39, 43, 44, 45, 46, 47, 52, 53, 54, 55, 58, 59, 60, 61, 62, 63] := by decide

theorem witness_BuildRoundTrip : Timecode.valid ⟨23, 59, 59, 29⟩ .fps30 = true := by decide

theorem witness_DropFrameFlagDifference : 0 < 80 ∧ 10 < 80 ∧ 27 < 80 ∧ 79 < 80 := by decide

theorem witness_HalfCellLengthsSumToSpan : 160 ≤ 161 ∧ 159 < 160 := by decide

theorem witness_RenderedFrameLengthAndPolarity :
    160 ≤ 160 ∧ 159 < (renderFrame 0#80 160 16384#15 .plus).1.length ∧
    159 < 160 ∧ boundary 160 159 ≤ 159 ∧ 159 < boundary 160 (159 + 1) := by decide +kernel

theorem witness_RenderStartsOrRefuses :
    State.reset.running = none ∧ (busyWith .render .start).running = some ⟨.render, .start⟩ ∧
    ({ State.reset with span := 159#32 } : State).span.toNat < 160 ∧
    160 ≤ ({ State.reset with span := 160#32 } : State).span.toNat := by decide

/-- In a frame of 170 samples half-cell 7 holds samples 7 and 8: sample 9 enters bit 4, sample 7 enters
the second half of bit 3, and sample 8 enters no half-cell. -/
theorem witness_EmissionFollowsHandshake :
    rendering.running = some ⟨.render, .emit 0 ⟨0xC000#16, true⟩⟩ ∧ 160 ≤ rendering.span.toNat ∧
    0 < rendering.span.toNat ∧ ({ rendering with smpReady := false } : State).smpReady = false ∧
    rendering.smpReady = true ∧ 159 + 1 = rendering.span.toNat ∧ 0 + 1 < rendering.span.toNat ∧
    (160 ≤ 170 ∧ 8 + 1 = boundary 170 (2 * 4) ∧ 6 + 1 = boundary 170 (2 * 3 + 1) ∧
      ∀ j < 160, 7 + 1 ≠ boundary 170 j) := by decide +kernel

theorem witness_RenderCommitsPolarityAndCompletes :
    (busyWith .render .commit).running = some ⟨.render, .commit⟩ ∧
    (busyWith .render .finish).running = some ⟨.render, .finish⟩ := by decide

theorem witness_RenderRunEmitsTheRenderedFrame : IdleReady generating ∧ 160 ≤ generating.span.toNat :=
  ⟨generating_ready, by decide⟩

theorem witness_NextspanWritesSpanAndPhase : State.reset.srate ≠ 0#32 ∧
    ({ State.reset with srate := 0#32 } : State).srate = 0#32 := by decide

theorem witness_SegmentTotalIsDriftFree : 0 < 1 ∧ 11 < 12 := by decide

theorem witness_MinimumSampleRate : 0 < 74 ∧ 73 < 74 := by decide

theorem witness_FrameChecksInOrder :
    (busyWith .frame .start).running = some ⟨.frame, .start⟩ ∧
    (busyWith .generate .start).running = some ⟨.generate, .start⟩ ∧
    ({ generating with srate := 0#32 } : State).srate = 0#32 ∧
    ({ generating with tc := ⟨24#5, 0#6, 0#6, 0#5⟩ } : State).tc.value.valid .fps2997 = false ∧
    nextSpan { generating with srate := 4764#32 } < 160 ∧ generating.frames ≠ 0#32 := by decide +kernel

theorem witness_FrameStartCommit :
    generating.running = none ∧ generating.srate ≠ 0#32 ∧
    generating.tc.value.valid generating.rate = true ∧
    160 ≤ nextSpan { generating with srate := 4796#32 } ∧ 160 ≤ nextSpan generating ∧
    generating.frames ≠ 0#32 := by decide +kernel

theorem witness_FrameEndCommit :
    (busyWith .frame .commit).running = some ⟨.frame, .commit⟩ ∧
    (busyWith .frame .finish).running = some ⟨.frame, .finish⟩ ∧
    (busyWith .generate .commit).running = some ⟨.generate, .commit⟩ ∧
    ({ busyWith .generate .commit with frames := 1#32 } : State).frames ≠ 0#32 := by decide

theorem witness_GenerateFrameBoundary :
    (busyWith .generate .finish).running = some ⟨.generate, .finish⟩ ∧
    (busyWith .generate .finish).frames = 0#32 ∧
    ({ busyWith .generate .finish with frames := 1#32, abortLatch := true } : State).frames ≠ 0#32 ∧
    ({ busyWith .generate .finish with frames := 1#32 } : State).abortLatch = false ∧
    (busyWith .generate .start).running = some ⟨.generate, .start⟩ := by decide

theorem witness_AbortOnlySetsLatchOrCompletes :
    (busyWith .abort .start).running = some ⟨.abort, .start⟩ ∧ State.reset.running = none ∧
    (busyWith .generate .start).running = some ⟨.generate, .start⟩ ∧ Instr.generate ≠ .abort ∧
    Instr.frame ≠ .abort := by decide

/-- For FrameRunProducesOneFrame and FrameEqualsItsFourCommands. -/
theorem witness_FrameRun : IdleReady generating ∧ generating.srate ≠ 0#32 ∧
    generating.tc.value.valid generating.rate = true ∧ 160 ≤ nextSpan generating :=
  ⟨generating_ready, by decide, by decide, by decide +kernel⟩

theorem witness_GenerateRunIsTheSourcesSequence : IdleReady generating ∧ Inv generating ∧
    generating.tc.value.valid generating.rate = true ∧
    160 * generating.rate.exactNum ≤ generating.srate.toNat * generating.rate.exactDen ∧
    160 * RateType.fps2997.exactNum ≤ (4796#32).toNat * RateType.fps2997.exactDen ∧
    generating.enc.phase = 0#20 :=
  ⟨generating_ready, generating_inv, by decide, by decide, by decide, by decide⟩

/-- For RstResetsTheBlock (the first two clauses) and IdleBlockHoldsItsState. -/
theorem witness_RstResetsTheBlock :
    ({ rendering with schedule := [.rst true] } : State).schedule = .rst true :: [] ∧
    ({ State.reset with rst := true, schedule := [.rst false] } : State).schedule = .rst false :: [] ∧
    ({ State.reset with rst := true, schedule := [.core] } : State).rst = true ∧
    ({ State.reset with rst := true, schedule := [.core] } : State).schedule = .core :: [] ∧
    (∃ off width v, ({ inReset with schedule := [writeTurn .tc 1#32] } : State).schedule =
      .host (.write off width v) :: []) ∧
    ∃ off width, ({ inReset with schedule := [.host (.read 0x3C#8 32)] } : State).schedule =
      .host (.read off width) :: [] ∧ 0x3C ≤ off.toNat :=
  ⟨by decide, by decide, by decide, by decide, ⟨_, _, _, rfl⟩, _, _, rfl, by decide⟩

/-- For EveryStepKeepsInvariant and PortHoldsSampleUntilTransfer: a step that transfers a sample. -/
theorem witness_EveryStepKeepsInvariant : Inv rendering ∧ (∃ t, step rendering = .next t) ∧
    rendering.port = some ⟨0xC000#16, true⟩ ∧ generating.port = none :=
  ⟨rendering_inv true, ⟨_, rfl⟩, by decide, by decide⟩

theorem witness_IdleBlockHoldsItsState : State.reset.running = none ∧ State.reset.schedule = [] ∧
    ({ State.reset with schedule := [.core] } : State).schedule = .core :: [] := by decide

/-- The last part: with ERR already 1 the error changes neither CAUSE nor ERR. -/
theorem witness_CommandErrorsArePrecise :
    (∃ t, exec .render (busyWith .render .start) = .next t ∧ t.cause ≠ (busyWith .render .start).cause ∧
      t.status.err ≠ (busyWith .render .start).status.err) ∧
    (∃ t, exec .render erred = .next t ∧ t.cause = erred.cause ∧ t.status.err = erred.status.err) ∧
    ∃ u, exec .render (withoutError erred) = .next u ∧ u.status.err = true :=
  ⟨⟨_, rfl, by decide, by decide⟩, ⟨_, rfl, by decide, by decide⟩, _, rfl, by decide⟩

theorem witness_EveryRunningCommandCompletes : Inv rendering ∧ rendering.rst = false ∧
    rendering.smpReady = true ∧ rendering.schedule = [] ∧ rendering.running ≠ none :=
  ⟨rendering_inv true, by decide, by decide, by decide, by decide⟩

theorem witness_StalledSinkHoldsRender : Inv { rendering with smpReady := false } ∧
    ({ rendering with smpReady := false } : State).rst = false ∧
    ({ rendering with smpReady := false } : State).smpReady = false ∧
    ({ rendering with smpReady := false } : State).port = some ⟨0xC000#16, true⟩ ∧
    ({ rendering with smpReady := false } : State).schedule = [] :=
  ⟨rendering_inv false, by decide, by decide, by decide, by decide⟩

end Sys2Proof.Tests
end

section
/-! PROOFS. The register window: the fields each register reads, its reserved bits, the writes that are
refused or ignored, and the reset values. -/

namespace Sys2Proof.Proofs

open Sys2Proof Sys2Proof.Machine Sys2Proof.Laws Sys2Proof.Statements

/-! ### Host write turns -/

theorem step_hostTurn (a : Access) (rest : List Turn) (s : State) :
    step (hostTurn a rest s) = hostStep a { s with schedule := rest } :=
  step_host rfl

/-- A write turn to a register other than CMD, with RST low. -/
theorem step_write_register {s : State} {r : Reg} (v : Word) (rest : List Turn) (out : s.rst = false)
    (hc : r ≠ .cmd) :
    step (hostTurn (write32 (offsetOf r) v) rest s) =
      .next (storeReg r (offsetOf r) v { s with schedule := rest }) := by
  rw [step_hostTurn]
  exact hostStep_write v out hc

/-- A write turn to CMD of a word that is no command, the block idle and RST low (R113). -/
theorem step_write_illegal {s : State} {v : Word} {e : DecodeError} (rest : List Turn)
    (out : s.rst = false) (idle : s.running = none) (hd : decode v = .reject e) :
    step (hostTurn (write32 (offsetOf .cmd) v) rest s) =
      .next (complete (recordCommand .illegalCmd (opField v) { s with schedule := rest })) := by
  rw [step_hostTurn]
  simp [hostStep, hostAccess, write32, out, busWrite, admitted_offsetOf, issue, State.busy, idle, hd]

/-! ### Fields as numbers -/

theorem irqEnPack_toNat (q : IrqEnReg) :
    q.pack.toNat = 2 * q.doneIe.toNat + 4 * q.errIe.toNat + 8 * q.abortIe.toNat := by
  simp only [IrqEnReg.pack, BitVec.toNat_cast, toNat_append_eq, BitVec.toNat_ofNat, BitVec.toNat_ofBool]
  omega

theorem code_toNat (c : Cause) : c.code.toNat = causeNumber c := by cases c <;> rfl

theorem selector_toNat (r : RateType) : r.selector.toNat = rateNumber r := by cases r <;> rfl

/-- A field below nothing but reserved bits reads as its number. -/
theorem zero_append_toNat {n k : Nat} (x : BitVec k) : (0#n ++ x).toNat = x.toNat := by simp

/-- WORD0, WORD1 and WORD2 hold the LTC word in order (R43). -/
theorem words_toNat (w : LtcWord) :
    (word0 w).toNat + 2 ^ 32 * (word1 w).toNat + 2 ^ 64 * (word2 w).toNat = w.toNat := by
  have := w.isLt
  simp only [word0, word1, word2, BitVec.toNat_cast, zero_append_toNat, BitVec.extractLsb'_toNat,
    Nat.shiftRight_eq_div_pow]
  omega

/-- Settles O11: each register's packing is the sum of its fields. -/
theorem registerFieldsStandWhereTheSpecPutsThem : Obligations.RegisterFieldsStandWhereTheSpecPutsThem := by
  intro s
  refine ⟨rfl, rfl, statusPack_toNat _ _, ?_, irqEnPack_toNat _, tcPack_toNat _, ?_, rfl, rfl, rfl, ?_,
    encPack_toNat _, words_toNat _⟩
  · rw [← code_toNat]
    exact causePack_toNat _
  · rw [← selector_toNat]
    exact zero_append_toNat _
  · exact zero_append_toNat _

/-! ### Reserved bits -/

/-- Two registers laid out over the same fields have no bit in common when no field has. -/
theorem append_and_eq_zero {n k : Nat} {x₁ y₁ : BitVec n} {x₂ y₂ : BitVec k} (h₁ : x₁ &&& y₁ = 0#n)
    (h₂ : x₂ &&& y₂ = 0#k) : (x₁ ++ x₂) &&& (y₁ ++ y₂) = 0#(n + k) := by
  rw [BitVec.and_append, h₁, h₂, BitVec.zero_append_zero]

/-- The same where `x₂` is a field and `x₁` the reserved bits above it. -/
theorem append_append_and_eq_zero {n j k : Nat} {x₀ y₀ : BitVec n} {y₁ : BitVec j} {x₂ : BitVec k}
    (h : x₀ &&& y₀ = 0#n) : (x₀ ++ 0#j ++ x₂) &&& (y₀ ++ y₁ ++ 0#k) = 0#(n + j + k) :=
  append_and_eq_zero (append_and_eq_zero h BitVec.zero_and) BitVec.and_zero

/-- Every reserved bit reads 0 (R49): a register is 0 between its fields, and its mask is 0 on them. -/
theorem readReg_and_reservedBits (r : Reg) (s : State) : readReg r s &&& reservedBits r = 0#32 := by
  cases r with
  | id | srate | span | frames | word0 | word1 => exact BitVec.and_zero
  | cmd => exact BitVec.zero_and
  | status =>
    have hm : reservedBits .status = 0xFFFFFFF#28 ++ 0#1 ++ 0#1 ++ 0#1 ++ 0#1 := by decide
    rw [hm]
    iterate 4 refine append_and_eq_zero ?_ BitVec.and_zero
    exact BitVec.zero_and
  | irqEn =>
    have hm : reservedBits .irqEn = 0xFFFFFFF#28 ++ 0#1 ++ 0#1 ++ 0#1 ++ 1#1 := by decide
    rw [hm]
    refine append_and_eq_zero ?_ BitVec.zero_and
    iterate 3 refine append_and_eq_zero ?_ BitVec.and_zero
    exact BitVec.zero_and
  | cause =>
    have hm : reservedBits .cause = 0xFF#8 ++ 0#8 ++ 0x7F#7 ++ 0#1 ++ 0#4 ++ 0#4 := by decide
    rw [hm]
    iterate 2 refine append_and_eq_zero ?_ BitVec.and_zero
    refine append_append_and_eq_zero ?_
    exact append_and_eq_zero BitVec.zero_and BitVec.and_zero
  | tc =>
    have hm : reservedBits .tc = 7#3 ++ 0#5 ++ 3#2 ++ 0#6 ++ 3#2 ++ 0#6 ++ 7#3 ++ 0#5 := by decide
    rw [hm]
    iterate 3 refine append_append_and_eq_zero ?_
    exact append_and_eq_zero BitVec.zero_and BitVec.and_zero
  | rate =>
    have hm : reservedBits .rate = 0x3FFFFFFF#30 ++ 0#2 := by decide
    rw [hm]
    exact append_and_eq_zero BitVec.zero_and BitVec.and_zero
  | amp =>
    have hm : reservedBits .amp = 0x1FFFF#17 ++ 0#15 := by decide
    rw [hm]
    exact append_and_eq_zero BitVec.zero_and BitVec.and_zero
  | enc =>
    have hm : reservedBits .enc = 0#1 ++ 0x7FF#11 ++ 0#20 := by decide
    rw [hm]
    exact append_append_and_eq_zero BitVec.and_zero
  | word2 =>
    have hm : reservedBits .word2 = 0xFFFF#16 ++ 0#16 := by decide
    rw [hm]
    exact append_and_eq_zero BitVec.zero_and BitVec.and_zero

/-- A field whose bits a mask keeps is not changed by the mask. -/
theorem extractLsb'_and_of_kept {v m : Word} {start len : Nat}
    (hm : m.extractLsb' start len = BitVec.allOnes len) :
    (v &&& m).extractLsb' start len = v.extractLsb' start len := by
  rw [BitVec.extractLsb'_and, hm, BitVec.and_allOnes]

theorem getLsbD_and_of_kept {v m : Word} {k : Nat} (hm : m.getLsbD k = true) :
    (v &&& m).getLsbD k = v.getLsbD k := by
  rw [BitVec.getLsbD_and, hm, Bool.and_true]

/-- No register stores a reserved bit (R49). -/
theorem writeReg_and_reservedBits (r : Reg) (v : Word) (s : State) :
    writeReg r (v &&& ~~~(reservedBits r)) s = writeReg r v s := by
  cases r with
  | id | cause | cmd => rfl
  | srate | span | frames | word0 | word1 => exact congrArg (writeReg _ · s) BitVec.and_allOnes
  | status =>
    simp only [writeReg, acknowledge, StatusReg.clearOnes, CauseReg.afterStatusWrite]
    rw [getLsbD_and_of_kept (by decide), getLsbD_and_of_kept (by decide), getLsbD_and_of_kept (by decide)]
  | irqEn =>
    simp only [writeReg, IrqEnReg.unpack]
    rw [getLsbD_and_of_kept (by decide), getLsbD_and_of_kept (by decide), getLsbD_and_of_kept (by decide)]
  | tc =>
    simp only [writeReg, TcReg.unpack]
    rw [extractLsb'_and_of_kept (by decide), extractLsb'_and_of_kept (by decide),
      extractLsb'_and_of_kept (by decide), extractLsb'_and_of_kept (by decide)]
  | rate | amp =>
    simp only [writeReg]
    rw [extractLsb'_and_of_kept (by decide)]
  | enc =>
    simp only [writeReg, EncReg.unpack]
    rw [getLsbD_and_of_kept (by decide), extractLsb'_and_of_kept (by decide)]
  | word2 =>
    simp only [writeReg, withWord2]
    rw [extractLsb'_and_of_kept (by decide)]

theorem storeReg_and_reservedBits (r : Reg) (off : Byte) (v : Word) (s : State) :
    storeReg r off (v &&& ~~~(reservedBits r)) s = storeReg r off v s := by
  have hw := writeReg_and_reservedBits r v s
  cases r with
  | id | cause => rfl
  | status | irqEn => exact hw
  | enc =>
    have hp : (v &&& ~~~(reservedBits .enc)).extractLsb' 0 20 = v.extractLsb' 0 20 :=
      extractLsb'_and_of_kept (by decide)
    simp only [storeReg]
    rw [hp, hw]
  | _ => simp only [storeReg, reduceCtorEq, false_and, if_false, hw]
  
/-- A command word is its reserved bits over its opcode (R110). -/
theorem word_eq_fields (v : Word) : v = rsvdField v ++ opField v := by
  apply BitVec.eq_of_toNat_eq
  rw [toNat_append_eq, rsvdField_toNat, opField_toNat]
  omega

/-- A reserved bit set in a command word makes it illegal (R113). -/
theorem decode_of_reservedBits {v : Word} (hv : v &&& reservedBits .cmd ≠ 0#32) :
    decode v = .reject .reservedBits := by
  have hr : rsvdField v ≠ 0#28 := by
    intro h
    apply hv
    have hm : reservedBits .cmd = 0xFFFFFFF#28 ++ 0#4 := by decide
    rw [word_eq_fields v, h, hm]
    exact BitVec.and_append.trans (congrArg₂ _ BitVec.zero_and BitVec.and_zero)
  rw [decode, if_pos hr]
/-- Settles O12: the masked word stores the same bits, and in CMD a reserved bit is rejected. -/
theorem reservedBitsReadZeroAndIgnoreWrites : Obligations.ReservedBitsReadZeroAndIgnoreWrites := by
  intro s r v rest out
  refine ⟨readReg_and_reservedBits r s, fun hc => ?_, fun idle hv => ?_⟩
  · rw [step_write_register v rest out hc, step_write_register _ rest out hc, storeReg_and_reservedBits]
  · rw [step_write_illegal rest out idle (decode_of_reservedBits hv)]
    rfl

/-! ### Writes that are refused or ignored -/

/-- A PHASE of L or more is refused whole (R42). -/
theorem storeReg_enc_refused {s : State} {off : Byte} {v : Word} (idle : s.running = none)
    (hp : Config.phaseDen ≤ (v.extractLsb' 0 20).toNat) :
    storeReg .enc off v s = recordAccess .phaseRange off s := by
  have hb : ¬ s.busy = true := by simp [State.busy, idle]
  unfold storeReg
  rw [if_neg hb, if_pos ⟨rfl, hp⟩]

/-- Settles O15: the PHASE check comes after the BUSY check, which an idle block passes. -/
theorem encWriteWithPhaseTooLargeIsRefused : Obligations.EncWriteWithPhaseTooLargeIsRefused := by
  intro s v rest out idle hp
  rw [step_write_register v rest out (by decide)]
  exact congrArg _ (storeReg_enc_refused idle hp)

/-- Settles O16: `storeReg` answers the state itself for both registers. -/
theorem writesToIdAndCauseAreIgnored : Obligations.WritesToIdAndCauseAreIgnored := by
  intro s v rest out
  exact ⟨step_write_register v rest out (by decide), step_write_register v rest out (by decide)⟩

/-! ### Reset -/

/-- Settles O51: each register of the reset state evaluates to its value in R52's table. -/
theorem resetValues : Obligations.ResetValues := by
  unfold Obligations.ResetValues
  decide

end Sys2Proof.Proofs
end

section
/-! PROOFS. The invariant of the block: it holds right after reset, and every step keeps it. -/

namespace Sys2Proof.Proofs

open Sys2Proof Sys2Proof.Machine Sys2Proof.Laws

/-! ### The parts of the invariant -/

/-- What `Inv` says of ENC, STATUS and CAUSE alone (R42, R46, R303). -/
structure RegistersOk (s : State) : Prop where
  phase : s.enc.phase.toNat < Config.phaseDen
  causeClear : s.status.err = false → s.cause = CauseReg.clear
  causeSet : s.status.err = true → s.cause.code ≠ .none

theorem registersOk_of_inv {s : State} (h : Inv s) : RegistersOk s :=
  ⟨h.phase, h.causeClear, h.causeSet⟩

theorem RegistersOk.congr {s t : State} (h : RegistersOk s) (phase : t.enc.phase = s.enc.phase)
    (err : t.status.err = s.status.err) (cause : t.cause = s.cause) : RegistersOk t where
  phase := by rw [phase]; exact h.phase
  causeClear := by rw [err, cause]; exact h.causeClear
  causeSet := by rw [err, cause]; exact h.causeSet

theorem RegistersOk.record {s : State} {c : CauseReg} (h : RegistersOk s) (hc : c.code ≠ .none) :
    RegistersOk (record c s) where
  phase := h.phase
  causeClear := fun he => by simp at he
  causeSet := fun _ => by
    cases he : s.status.err with
    | false => simpa [he] using hc
    | true => simpa [he] using h.causeSet he

/-- Clearing ERR clears CAUSE with it, and nothing else touches either (R46, R308). -/
theorem RegistersOk.acknowledge {s : State} (h : RegistersOk s) (v : Word) :
    RegistersOk (acknowledge v s) := by
  cases hv : v[2] with
  | false =>
    exact h.congr rfl (by simp [StatusReg.clearOnes, hv]) (by simp [CauseReg.afterStatusWrite, hv])
  | true =>
    exact ⟨h.phase, fun _ => by simp [CauseReg.afterStatusWrite, hv],
      fun he => by simp [StatusReg.clearOnes, hv] at he⟩

theorem RegistersOk.writeSpan {s : State} (h : RegistersOk s) : RegistersOk (writeSpan s) :=
  ⟨writeSpan_phase_lt s, h.causeClear, h.causeSet⟩

/-- The running polarity is ENC.POL when a command is at its start (R50 item 1). -/
theorem runPol_start_of_inv {s : State} {i : Instr} (h : Inv s) (hr : s.running = some ⟨i, .start⟩) :
    s.runPol = s.enc.pol := by
  have hp := h.progress
  rw [ProgressOk, hr] at hp
  exact hp

/-- An idle block holds no abort request, and its running polarity is ENC.POL (R50 items 1 and 2). -/
theorem latch_pol_of_idle {s : State} (h : Inv s) (idle : s.running = none) :
    s.abortLatch = false ∧ s.runPol = s.enc.pol :=
  ⟨abortLatch_clear_of_inv h (by simp [idle]), runPol_idle_of_inv h idle⟩

/-- Where RST is low, `Inv` is about the registers, the abort latch and the progress. -/
theorem inv_of_rst_low {s : State} (out : s.rst = false) (registers : RegistersOk s)
    (abort : s.abortLatch = true → s.running.map Running.cmd = some .generate)
    (progress : ProgressOk s) : Inv s where
  phase := registers.phase
  causeClear := registers.causeClear
  causeSet := registers.causeSet
  abort := abort
  reset := fun hr => absurd (out.symm.trans hr) Bool.false_ne_true
  progress := progress

/-- Where RST is low, an update of registers that leaves the frame alone keeps `Inv` if the registers
and the abort latch still fit. -/
theorem inv_of_sameFrame {s t : State} (h : Inv s) (e : SameFrame s t) (out : t.rst = false)
    (registers : RegistersOk t)
    (abort : t.abortLatch = true → t.running.map Running.cmd = some .generate) : Inv t :=
  inv_of_rst_low out registers abort (progressOk_congr h.progress e)

/-! ### The environment's turns and reset -/

/-- The pins, the schedule and the records of sink and host are not in the invariant. -/
theorem inv_environment {s : State} (h : Inv s) (ready : Bool) (schedule : List Turn)
    (sent : List PortSample) (reads : List Word) :
    Inv { s with smpReady := ready, schedule := schedule, sent := sent, reads := reads } where
  phase := h.phase
  causeClear := h.causeClear
  causeSet := h.causeSet
  abort := h.abort
  reset := fun hr =>
    congrArg (fun u : State => { u with smpReady := ready, schedule := schedule, sent := sent, reads := reads })
      (h.reset hr)
  progress := progressOk_congr h.progress ⟨rfl, rfl, rfl, rfl, rfl, rfl, rfl, rfl, rfl⟩

theorem inv_popTurn {s : State} (h : Inv s) : Inv (popTurn s) :=
  inv_environment h s.smpReady s.schedule.tail s.sent s.reads

theorem inv_sinkTurn {s : State} (h : Inv s) (ready : Bool) : Inv (sinkTurn ready s) :=
  inv_environment h ready s.schedule s.sent s.reads

theorem inv_useCoreTurn {s : State} (h : Inv s) : Inv (useCoreTurn s) := by
  unfold useCoreTurn
  split
  · exact inv_environment h s.smpReady _ s.sent s.reads
  · exact h

/-- The reset values meet the invariant, at either level of RST (R340). -/
theorem inv_resetBlock (s : State) (level : Bool) : Inv { resetBlock s with rst := level } where
  phase := Nat.zero_lt_succ _
  causeClear := fun _ => rfl
  causeSet := fun he => absurd he Bool.false_ne_true
  abort := fun ha => absurd ha Bool.false_ne_true
  reset := fun _ => rfl
  progress := rfl

theorem inv_rstTurn {s : State} (h : Inv s) (level : Bool) : Inv (rstTurn level s) := by
  unfold rstTurn
  split
  · exact inv_resetBlock s level
  · exact h

/-! ### The host's accesses -/

theorem inv_record {s : State} {c : CauseReg} (h : Inv s) (out : s.rst = false) (hc : c.code ≠ .none) :
    Inv (record c s) :=
  inv_of_sameFrame h ⟨rfl, rfl, rfl, rfl, rfl, rfl, rfl, rfl, rfl⟩ out ((registersOk_of_inv h).record hc)
    h.abort

theorem inv_acknowledge {s : State} (h : Inv s) (out : s.rst = false) (v : Word) :
    Inv (acknowledge v s) :=
  inv_of_sameFrame h ⟨rfl, rfl, rfl, rfl, rfl, rfl, rfl, rfl, rfl⟩ out
    ((registersOk_of_inv h).acknowledge v) h.abort

/-- The abort latch is set only where GENERATE runs (R276). -/
theorem inv_requestAbort {s : State} (h : Inv s) (out : s.rst = false) : Inv (requestAbort s) := by
  refine inv_of_sameFrame h (by constructor <;> simp) (by simpa using out)
    ((registersOk_of_inv h).congr (by simp) (by simp) (by simp)) ?_
  rw [requestAbort_abortLatch, requestAbort_running, Bool.or_eq_true, decide_eq_true_eq]
  exact fun ha => ha.elim h.abort id

theorem inv_hostRead {s : State} (h : Inv s) (off : Byte) (width : Nat) :
    Inv (hostRead off width s) := by
  rcases hostRead_cases off width s with ⟨v, e⟩ | ⟨out, -, e⟩ <;> rw [e]
  · exact inv_environment h s.smpReady s.schedule s.sent _
  · exact inv_environment (inv_record h out (by simp)) s.smpReady s.schedule s.sent _

theorem writeReg_keeps_control (r : Reg) (v : Word) (s : State) :
    (writeReg r v s).running = s.running ∧ (writeReg r v s).abortLatch = s.abortLatch ∧
      (writeReg r v s).rst = s.rst := by
  cases r <;> exact ⟨rfl, rfl, rfl⟩

/-- A host write of ENC sets the running polarity with ENC.POL (R50 item 1). -/
theorem writeReg_runPol {s : State} (r : Reg) (v : Word) (h : s.runPol = s.enc.pol) :
    (writeReg r v s).runPol = (writeReg r v s).enc.pol := by
  cases r with
  | enc => rfl
  | _ => exact h

/-- A write keeps PHASE below L when an ENC value has it so (R42). -/
theorem RegistersOk.writeReg {s : State} {r : Reg} {v : Word} (h : RegistersOk s)
    (hv : r = .enc → (v.extractLsb' 0 20).toNat < Config.phaseDen) : RegistersOk (writeReg r v s) := by
  cases r with
  | enc => exact ⟨hv rfl, h.causeClear, h.causeSet⟩
  | status => exact h.acknowledge v
  | _ => exact h.congr rfl rfl rfl

theorem inv_writeReg_idle {s : State} {r : Reg} {v : Word} (h : Inv s) (out : s.rst = false)
    (idle : s.running = none) (hv : r = .enc → (v.extractLsb' 0 20).toNat < Config.phaseDen) :
    Inv (writeReg r v s) := by
  obtain ⟨hrun, hlatch, hrst⟩ := writeReg_keeps_control r v s
  obtain ⟨phase, clear, set⟩ := (registersOk_of_inv h).writeReg hv
  obtain ⟨latch, pol⟩ := latch_pol_of_idle h idle
  exact inv_of_idle phase clear set (hlatch.trans latch) (hrst.trans out) (hrun.trans idle)
    (writeReg_runPol r v pol)

theorem inv_writeReg_irqEn {s : State} (h : Inv s) (out : s.rst = false) (v : Word) :
    Inv (writeReg .irqEn v s) :=
  inv_of_sameFrame h ⟨rfl, rfl, rfl, rfl, rfl, rfl, rfl, rfl, rfl⟩ out
    ((registersOk_of_inv h).congr rfl rfl rfl) h.abort

theorem running_of_not_busy {s : State} (h : s.busy = false) : s.running = none := by
  simpa [State.busy] using h

theorem inv_storeReg {s : State} (h : Inv s) (out : s.rst = false) (r : Reg) (off : Byte) (v : Word) :
    Inv (storeReg r off v s) := by
  rcases storeReg_cases r off v s with e | ⟨-, e⟩ | e | ⟨-, e⟩ | ⟨hw, hv, e⟩ <;> rw [e]
  · exact h
  · exact inv_acknowledge h out v
  · exact inv_record h out (by simp)
  · exact inv_record h out (by simp)
  · rcases hw with rfl | idle
    · exact inv_writeReg_irqEn h out v
    · exact inv_writeReg_idle h out (running_of_not_busy idle) hv

/-! ### The end of a command -/

/-- A command that ends outside a frame, with the abort latch clear, leaves a safe state (R307). -/
theorem inv_complete {s : State} (h : RegistersOk s) (out : s.rst = false) (abort : s.abortLatch = false)
    (pol : s.runPol = s.enc.pol) : Inv (complete s) :=
  inv_of_idle h.phase h.causeClear h.causeSet abort out rfl pol

theorem inv_raise {s : State} {c : Cause} (i : Instr) (h : RegistersOk s) (hc : c ≠ .none)
    (out : s.rst = false) (abort : s.abortLatch = false) (pol : s.runPol = s.enc.pol) :
    Inv (raise c i s) :=
  inv_complete (h.record hc) out abort pol

theorem inv_accept {s : State} (h : Inv s) (out : s.rst = false) (idle : s.running = none) (i : Instr) :
    Inv (accept i s) := by
  obtain ⟨latch, pol⟩ := latch_pol_of_idle h idle
  exact inv_of_rst_low out ((registersOk_of_inv h).congr rfl rfl rfl)
    (fun ha => absurd (latch.symm.trans ha) Bool.false_ne_true) pol

/-! ### The frame -/

/-- Offering the next sample keeps the running polarity that of the sample's half-cell (R222). -/
theorem inv_offer {s : State} {i : Instr} {n : Nat} (out : s.rst = false) (registers : RegistersOk s)
    (abort : s.abortLatch = true → i = .generate) (held : FrameHeld i s) (hn : n < s.span.toNat)
    (pol : polarityAt s.word s.span.toNat n s.runPol =
      halfCellPolarity s.word s.enc.pol (halfCellOf s.span.toNat n)) : Inv (offer i n s) :=
  inv_of_rst_low out (registers.congr rfl rfl rfl) (fun ha => congrArg some (abort ha))
    ⟨⟨held.emits, held.span, held.timecode, held.word, held.frames⟩, hn, pol, rfl⟩

theorem inv_beginEmission {s : State} {i : Instr} (out : s.rst = false) (registers : RegistersOk s)
    (abort : s.abortLatch = true → i = .generate) (held : FrameHeld i s) : Inv (beginEmission i s) :=
  inv_offer (s := { s with runPol := s.enc.pol }) out (registers.congr rfl rfl rfl) abort
    ⟨held.emits, held.span, held.timecode, held.word, held.frames⟩
    (Nat.lt_of_lt_of_le (by decide) held.span) (polarityAt_zero _ _ _ held.span)

theorem inv_beginFrame {s : State} {i : Instr} (out : s.rst = false) (registers : RegistersOk s)
    (abort : s.abortLatch = true → i = .generate) (hi : emits i = true) (checks : frameFault s = none)
    (frames : i = .generate → s.frames ≠ 0#32) : Inv (beginFrame i s) :=
  inv_beginEmission (s := writeBuiltWord (writeSpan s)) out (registers.writeSpan.congr rfl rfl rfl) abort
    (frameHeld_of_checks hi checks frames)

/-- The last sample of a frame lies in its last half-cell. -/
theorem halfCellOf_last {S n : Nat} (hS : 160 ≤ S) (hn : n < S) (hl : S ≤ n + 1) :
    halfCellOf S n = 159 := by
  refine (halfCellOf_eq_iff S n 159 (by omega)).2 ⟨?_, ?_⟩ <;> unfold boundary <;> omega

/-- The abort latch names the running command. -/
theorem abortLatch_generate {s : State} {i : Instr} {p : Phase} (h : Inv s)
    (hr : s.running = some ⟨i, p⟩) (ha : s.abortLatch = true) : i = .generate := by
  simpa [hr] using h.abort ha

theorem inv_emission {s : State} {i : Instr} {n : Nat} {p : PortSample} (h : Inv s) (out : s.rst = false)
    (hr : s.running = some ⟨i, .emit n p⟩) : Inv (emission i n p s) := by
  have hp := h.progress
  rw [ProgressOk, hr] at hp
  obtain ⟨held, hn, pol, -⟩ := hp
  have registers := registersOk_of_inv h
  have abort := abortLatch_generate h hr
  have held' : FrameHeld i (transfer p s) :=
    ⟨held.emits, held.span, held.timecode, held.word, held.frames⟩
  rcases emission_cases i n p s with ⟨-, e⟩ | ⟨-, hnext, e⟩ | ⟨-, hlast, e⟩ <;> rw [e]
  · exact h
  · refine inv_offer out (registers.congr rfl rfl rfl) abort held' hnext ?_
    rw [transfer_word, transfer_span, transfer_runPol, transfer_enc, pol]
    exact polarityAt_succ _ _ _ _ held.span
  · rw [halfCellOf_last held.span hn hlast] at pol
    exact inv_of_rst_low out (registers.congr rfl rfl rfl) (fun ha => congrArg some (abort ha))
      ⟨⟨held.emits, held.span, held.timecode, held.word, held.frames⟩, pol⟩

/-! ### The updates of the running command -/

theorem updateFault_ne_none {i : Instr} {s : State} {c : Cause} (h : updateFault i s = some c) :
    c ≠ .none := by
  have hf : frameFault s ≠ some .none := by
    unfold frameFault
    split_ifs <;> simp
  rintro rfl
  cases i <;> simp_all [updateFault]

/-- Only an emitting command is ever past its start. -/
theorem phase_start_of_not_emits {s : State} {i : Instr} {p : Phase} (h : Inv s)
    (hr : s.running = some ⟨i, p⟩) (hi : emits i = false) : p = .start := by
  have hp := h.progress
  rw [ProgressOk, hr] at hp
  cases p with
  | start => rfl
  | emit n q => exact absurd (hi.symm.trans hp.1.emits) Bool.false_ne_true
  | commit => exact absurd (hi.symm.trans hp.1.emits) Bool.false_ne_true
  | finish => exact absurd (hi.symm.trans hp.1) Bool.false_ne_true

/-- The first update of a command, where its checks pass. -/
theorem inv_exec_start_passed {s t : State} {i : Instr} (h : Inv s) (out : s.rst = false)
    (hr : s.running = some ⟨i, .start⟩) (hu : updateFault i s = none) (e : exec i s = .next t) : Inv t := by
  have registers := registersOk_of_inv h
  have pol := runPol_start_of_inv h hr
  have abort := abortLatch_generate h hr
  have latch (hi : i ≠ .generate) : s.abortLatch = false := by
    by_contra hl
    exact hi (abort (by simpa using hl))
  have start := phaseOf_start (.inr hr)
  cases i with
  | nop =>
    rw [exec_nop] at e
    cases e
    exact inv_complete registers out (latch (by decide)) pol
  | advance =>
    rw [exec_advance, if_pos (by simpa [updateFault] using hu)] at e
    cases e
    exact inv_complete (registers.congr rfl rfl rfl) out (latch (by decide)) pol
  | build =>
    rw [exec_build, if_pos (by simpa [updateFault] using hu)] at e
    cases e
    exact inv_complete (registers.congr rfl rfl rfl) out (latch (by decide)) pol
  | nextspan =>
    rw [exec_nextspan, if_neg (by simpa [updateFault] using hu)] at e
    cases e
    exact inv_complete registers.writeSpan out (latch (by decide)) pol
  | segreset =>
    rw [exec_segreset] at e
    cases e
    exact inv_complete ⟨Nat.zero_lt_succ _, registers.causeClear, registers.causeSet⟩ out (latch (by decide)) rfl
  | abort =>
    simp only [exec, execAbort, hr, if_true] at e
    cases e
    exact inv_complete registers out (latch (by decide)) pol
  | render =>
    have hs : ¬ s.span.toNat < Config.minSpan := by simpa [updateFault, start] using hu
    rw [exec_render_start start, if_neg hs] at e
    cases e
    exact inv_beginEmission out registers abort ⟨rfl, Nat.not_lt.1 hs, by simp, by simp, by simp⟩
  | frame =>
    have checks : frameFault s = none := by simpa [updateFault, start] using hu
    rw [exec_frame_start start checks] at e
    cases e
    exact inv_beginFrame out registers abort rfl checks (by simp)
  | generate =>
    by_cases hf : s.frames = 0#32
    · rw [exec_generate_none start hf] at e
      cases e
      exact inv_complete (registers.congr rfl rfl rfl) out rfl pol
    · have checks : frameFault s = none := by simpa [updateFault, start, hf] using hu
      rw [exec_generate_start start hf checks] at e
      cases e
      exact inv_beginFrame out registers abort rfl checks (fun _ => hf)

/-- The first update of a command: it raises an error and ends, or its checks pass. -/
theorem inv_exec_start {s t : State} {i : Instr} (h : Inv s) (out : s.rst = false)
    (hr : s.running = some ⟨i, .start⟩) (e : exec i s = .next t) : Inv t := by
  cases hu : updateFault i s with
  | none => exact inv_exec_start_passed h out hr hu e
  | some c =>
    rw [exec_of_updateFault hu] at e
    cases e
    have registers := registersOk_of_inv h
    have pol := runPol_start_of_inv h hr
    unfold raisedOver
    split
    · exact inv_raise i (registers.congr rfl rfl rfl) (updateFault_ne_none hu) out rfl pol
    · exact inv_raise i registers (updateFault_ne_none hu) out
        (abortLatch_clear_of_inv h (by simpa [hr])) pol

/-- The end-of-frame commit: ENC.POL takes the running polarity (R220, R272). -/
theorem inv_exec_commit {s t : State} {i : Instr} (h : Inv s) (out : s.rst = false)
    (hr : s.running = some ⟨i, .commit⟩) (e : exec i s = .next t) : Inv t := by
  have hp := h.progress
  rw [ProgressOk, hr] at hp
  obtain ⟨held, -⟩ := hp
  have registers := registersOk_of_inv h
  have abort ha := congrArg some (abortLatch_generate h hr ha)
  cases i with
  | render =>
    rw [exec_render_commit hr] at e
    cases e
    exact inv_of_rst_low out (registers.congr rfl rfl rfl) abort ⟨rfl, rfl⟩
  | frame =>
    rw [exec_frame_commit hr] at e
    cases e
    exact inv_of_rst_low out (registers.congr rfl rfl rfl) abort ⟨rfl, rfl⟩
  | generate =>
    rw [exec_generate_commit hr] at e
    cases e
    exact inv_of_rst_low out (registers.congr rfl rfl rfl) abort ⟨rfl, rfl⟩
  | _ => exact absurd held.emits Bool.false_ne_true

/-- GENERATE's frame boundary clears the abort latch wherever it ends the command (R275). -/
theorem inv_frameBoundary {s : State} (out : s.rst = false) (registers : RegistersOk s)
    (pol : s.runPol = s.enc.pol) : Inv (frameBoundary s) := by
  unfold frameBoundary
  split_ifs
  · exact inv_complete (registers.congr rfl rfl rfl) out rfl pol
  · exact inv_complete (registers.congr rfl rfl rfl) out rfl pol
  · exact inv_of_rst_low out (registers.congr rfl rfl rfl) (fun _ => rfl) pol

theorem inv_exec_finish {s t : State} {i : Instr} (h : Inv s) (out : s.rst = false)
    (hr : s.running = some ⟨i, .finish⟩) (e : exec i s = .next t) : Inv t := by
  have hp := h.progress
  rw [ProgressOk, hr] at hp
  obtain ⟨hi, pol⟩ := hp
  have registers := registersOk_of_inv h
  cases i with
  | render =>
    rw [exec_render_finish hr] at e
    cases e
    exact inv_complete registers out (abortLatch_clear_of_inv h (by simp [hr])) pol
  | frame =>
    rw [exec_frame_finish hr] at e
    cases e
    exact inv_complete registers out (abortLatch_clear_of_inv h (by simp [hr])) pol
  | generate =>
    rw [exec_generate_finish hr] at e
    cases e
    exact inv_frameBoundary out registers pol
  | _ => exact absurd hi Bool.false_ne_true

/-- Every update of the running command keeps the invariant. -/
theorem inv_exec {s t : State} {i : Instr} {p : Phase} (h : Inv s) (out : s.rst = false)
    (hr : s.running = some ⟨i, p⟩) (e : exec i s = .next t) : Inv t := by
  cases p with
  | start => exact inv_exec_start h out hr e
  | emit n q =>
    have hp := h.progress
    rw [ProgressOk, hr] at hp
    rw [exec_emit hp.1.emits hr] at e
    cases e
    exact inv_emission h out hr
  | commit => exact inv_exec_commit h out hr e
  | finish => exact inv_exec_finish h out hr e

/-! ### Steps -/

theorem inv_coreStep {s t : State} (h : Inv s) (e : coreStep s = .next t) : Inv t := by
  rcases coreStep_cases e with rfl | ⟨out, r, hr, e⟩
  · exact h
  · exact inv_exec h out hr e

theorem useCoreTurn_keeps_block (s : State) :
    (useCoreTurn s).rst = s.rst ∧ (useCoreTurn s).running = s.running := by
  unfold useCoreTurn
  split <;> exact ⟨rfl, rfl⟩

theorem inv_hostStep {a : Access} {s t : State} (h : Inv s) (e : hostStep a s = .next t) : Inv t := by
  rcases hostStep_cases e with ⟨off, width, -, rfl⟩ | ⟨-, rfl⟩ | ⟨out, hw⟩
  · exact inv_hostRead h off width
  · exact h
  · rcases hw with ⟨off, width, v, -, -, rfl⟩ | ⟨r, v, -, -, rfl⟩ | ⟨v, -, hc⟩
    · exact inv_record h out (by simp)
    · exact inv_storeReg h out r _ v
    · rcases hc with ⟨-, -, rfl⟩ | ⟨-, -, rfl⟩ | ⟨idle, -, rfl⟩ | ⟨idle, i, -, hi⟩
      · exact inv_requestAbort h out
      · exact inv_record h out (by simp)
      · obtain ⟨latch, pol⟩ := latch_pol_of_idle h (running_of_not_busy idle)
        exact inv_complete ((registersOk_of_inv h).record (by simp)) out latch pol
      · have hacc := inv_accept h out (running_of_not_busy idle) i
        rcases hi with ⟨-, rfl⟩ | ⟨-, e⟩
        · exact hacc
        · obtain ⟨hrst, hrun⟩ := useCoreTurn_keeps_block (accept i s)
          exact inv_exec (inv_useCoreTurn hacc) (hrst.trans out) hrun e

/-- Settles O54: each turn a step can be keeps the invariant. -/
theorem everyStepKeepsInvariant : Obligations.EveryStepKeepsInvariant := by
  intro s t h e
  have hpop := inv_popTurn h
  rcases step_cases e with e | e | ⟨-, rfl⟩ | ⟨ready, rfl⟩ | ⟨level, rfl⟩ | ⟨a, e⟩
  · exact inv_coreStep h e
  · exact inv_coreStep hpop e
  · exact inv_hostRead hpop _ _
  · exact inv_sinkTurn hpop ready
  · exact inv_rstTurn hpop level
  · exact inv_hostStep hpop e

/-- Settles O53: State.reset is what RST leaves of itself. -/
theorem resetMeetsInvariant : Obligations.ResetMeetsInvariant :=
  inv_resetBlock State.reset false

end Sys2Proof.Proofs
end

section
/-! PROOFS. The block's own turn, and the accesses of the register window: reads, bad accesses, and what a
write leads to while a command runs. -/

namespace Sys2Proof.Proofs

open Sys2Proof Sys2Proof.Machine Sys2Proof.Laws Sys2Proof.Statements

/-! ### The block's own turn -/

/-- Out of reset the block's own turn is the running command's update. -/
theorem coreStep_running {s : State} {i : Instr} {p : Phase} (out : s.rst = false)
    (hr : s.running = some ⟨i, p⟩) : coreStep s = exec i s := by
  simp [coreStep, out, hr]

/-- Settles O6: each of the three schedules makes the step the block's own turn. -/
theorem coreTurnRunsRunningCommand : Obligations.CoreTurnRunsRunningCommand := by
  intro s i p rest out hr
  refine ⟨fun hs => step_running hs out hr, fun hs => ?_, fun hs => ?_⟩
  · have hstep : step s = coreStep { s with schedule := rest } := by simp [step, hs, popTurn]
    exact hstep.trans (coreStep_running out hr)
  · have hstep : step s = coreStep s := by simp [step, hs, State.busy, hr]
    exact hstep.trans (coreStep_running out hr)

/-! ### Reads -/

/-- The register map pairs each register with its offset (R82). -/
theorem offsetOf_of_mem_registerMap {off : Byte} {r : Reg} (h : (off, r) ∈ registerMap) :
    offsetOf r = off := by
  have hmap : ∀ x ∈ registerMap, offsetOf x.2 = x.1 := by decide
  exact hmap _ h

/-- No register reads the schedule. -/
theorem readReg_withSchedule (r : Reg) (s : State) (rest : List Turn) :
    readReg r { s with schedule := rest } = readReg r s := by
  cases r <;> rfl

/-- Settles O10: a read turn, and the poll that ends a WAIT, is `hostRead` at a register's offset. -/
theorem readReturnsRegisterWithoutSideEffect : Obligations.ReadReturnsRegisterWithoutSideEffect := by
  intro s rest
  refine ⟨fun off r hmem => ?_, fun idle => ?_⟩
  · obtain rfl := offsetOf_of_mem_registerMap hmem
    rw [step_hostTurn, hostStep_read, readReg_withSchedule]
    exact ⟨rfl, rfl⟩
  · have hstep : step { s with schedule := .wait :: rest } =
        .next (pollStatus { s with schedule := rest }) := by
      simp [step, State.busy, idle, popTurn]
    rw [hstep, pollStatus, hostRead_offsetOf, readReg_withSchedule]

/-! ### Bad accesses -/

/-- The offset of a register is a multiple of 4 below 0x3C (R82). -/
theorem offsetOf_aligned_mapped (r : Reg) : (offsetOf r).toNat % 4 = 0 ∧ (offsetOf r).toNat < 0x3C := by
  cases r <;> decide

/-- The bus admits no access that is not 32 bits wide, is misaligned or is unmapped (R83). -/
theorem admitted_bad {off : Byte} {width : Nat}
    (bad : width ≠ 32 ∨ off.toNat % 4 ≠ 0 ∨ 0x3C ≤ off.toNat) : admitted off width = none := by
  cases ha : admitted off width with
  | none => rfl
  | some r =>
    obtain ⟨hw, rfl⟩ := offset_of_admitted ha
    have := offsetOf_aligned_mapped r
    omega

/-- A bad write turn, with RST low. -/
theorem hostStep_write_bad {s : State} {off : Byte} {width : Nat} (v : Word) (out : s.rst = false)
    (ha : admitted off width = none) :
    hostStep (.write off width v) s = .next (recordAccess .badAccess off s) := by
  simp [hostStep, hostAccess, out, busWrite, ha]

/-- A bad read turn, with RST low. -/
theorem hostStep_read_bad {s : State} {off : Byte} {width : Nat} (out : s.rst = false)
    (ha : admitted off width = none) :
    hostStep (.read off width) s =
      .next { recordAccess .badAccess off s with reads := 0#32 :: s.reads } := by
  simp only [hostStep, hostAccess, hostRead_bad s ha, out, Bool.false_eq_true, if_false]

/-- Settles O9: such an access is not admitted, so a write and a read both record BAD_ACCESS. -/
theorem badAccessRecordsBadAccess : Obligations.BadAccessRecordsBadAccess := by
  intro s off width v rest out bad
  have ha := admitted_bad bad
  rw [step_hostTurn, step_hostTurn]
  exact ⟨hostStep_write_bad v out ha, hostStep_read_bad out ha⟩

/-! ### Writes while a command runs -/

/-- A guarded register is not written while BUSY = 1 (R93). -/
theorem storeReg_guarded_busy {r : Reg} {s : State} (off : Byte) (v : Word) (hg : r ∈ guarded)
    (busy : s.busy = true) : storeReg r off v s = recordAccess .busy off s := by
  cases r with
  | id | cmd | status | cause | irqEn => exact absurd hg (by decide)
  | _ => exact if_pos busy

/-- A write turn to CMD while BUSY = 1, of any word but ABORT's (R93, R112). -/
theorem hostStep_cmd_busy {s : State} {v : Word} (out : s.rst = false) (busy : s.busy = true)
    (hv : v ≠ encode .abort) :
    hostStep (.write (offsetOf .cmd) 32 v) s = .next (recordCommand .busy (opField v) s) := by
  simp [hostStep, hostAccess, out, busWrite, admitted_offsetOf, issue, busy, hv]

/-- Settles O14: guarded registers and CMD look at BUSY first; STATUS and IRQ_EN do not look at it. -/
theorem writesWhileBusy : Obligations.WritesWhileBusy := by
  intro s i p v rest out hr
  have busy : s.busy = true := by simp [State.busy, hr]
  refine ⟨fun r hg => ?_, fun hv => ?_, step_write_register v rest out (by decide),
    step_write_register v rest out (by decide)⟩
  · have hc : r ≠ .cmd := by
      rintro rfl
      exact absurd hg (by decide)
    rw [step_write_register v rest out hc]
    exact congrArg _ (storeReg_guarded_busy _ v hg busy)
  · rw [step_hostTurn]
    exact hostStep_cmd_busy out busy hv

end Sys2Proof.Proofs
end

section
/-! PROOFS. A write of a read-write register and the reads after it: the register holds the defined bits
of the value, and no other register reads differently. -/

namespace Sys2Proof.Proofs

open Sys2Proof Sys2Proof.Machine Sys2Proof.Laws Sys2Proof.Statements

/-! ### A word under a mask, field by field -/

/-- Fields that make up the whole of a word under a mask are that word under the mask. -/
theorem and_of_fields {v m x : Word} (h : x = v.extractLsb' 0 32 &&& m) : x = v &&& m := by
  rwa [BitVec.extractLsb'_eq_self] at h

/-- Below the part `p` that is `v` under the mask `x`, a field the mask keeps. -/
theorem append_kept {v : Word} {a n k : Nat} {p x : BitVec n} (hp : p = v.extractLsb' (a + k) n &&& x) :
    p ++ v.extractLsb' a k = v.extractLsb' a (n + k) &&& (x ++ BitVec.allOnes k) := by
  rw [← BitVec.extractLsb'_append_extractLsb'_eq_extractLsb' rfl, BitVec.and_append, ← hp,
    BitVec.and_allOnes]

/-- Below that part, reserved bits. -/
theorem append_reserved {v : Word} {a n k : Nat} {p x : BitVec n}
    (hp : p = v.extractLsb' (a + k) n &&& x) :
    p ++ 0#k = v.extractLsb' a (n + k) &&& (x ++ 0#k) := by
  rw [← BitVec.extractLsb'_append_extractLsb'_eq_extractLsb' rfl, BitVec.and_append, ← hp,
    BitVec.and_zero]

/-- A field of one bit. -/
theorem ofBool_getLsbD_eq_extractLsb' (v : Word) (k : Nat) :
    BitVec.ofBool (v.getLsbD k) = v.extractLsb' k 1 := by
  apply BitVec.eq_of_getLsbD_eq
  intro i hi
  obtain rfl : i = 0 := by omega
  simp

/-! ### Reading a packed value back -/

theorem tcPack_unpack (v : Word) : (TcReg.unpack v).pack = v &&& ~~~(reservedBits .tc) := by
  have hm : ~~~(reservedBits .tc) = 0#3 ++ BitVec.allOnes 5 ++ 0#2 ++ BitVec.allOnes 6 ++ 0#2 ++
      BitVec.allOnes 6 ++ 0#3 ++ BitVec.allOnes 5 := by decide
  rw [hm]
  refine and_of_fields ?_
  iterate 3 refine append_kept (append_reserved ?_)
  exact append_kept BitVec.and_zero.symm

theorem irqEnPack_unpack (v : Word) : (IrqEnReg.unpack v).pack = v &&& ~~~(reservedBits .irqEn) := by
  have hm : ~~~(reservedBits .irqEn) =
      0#28 ++ BitVec.allOnes 1 ++ BitVec.allOnes 1 ++ BitVec.allOnes 1 ++ 0#1 := by decide
  rw [hm, IrqEnReg.pack, IrqEnReg.unpack, ofBool_getLsbD_eq_extractLsb', ofBool_getLsbD_eq_extractLsb',
    ofBool_getLsbD_eq_extractLsb']
  refine and_of_fields (append_reserved ?_)
  iterate 3 refine append_kept ?_
  exact BitVec.and_zero.symm

theorem polarity_bit_ofBit (b : Bool) : (Polarity.ofBit b).bit = b := by cases b <;> rfl

theorem encPack_unpack (v : Word) : (EncReg.unpack v).pack = v &&& ~~~(reservedBits .enc) := by
  have hm : ~~~(reservedBits .enc) = BitVec.allOnes 1 ++ 0#11 ++ BitVec.allOnes 20 := by decide
  rw [hm, EncReg.pack, EncReg.unpack, polarity_bit_ofBit, ofBool_getLsbD_eq_extractLsb']
  exact and_of_fields (append_kept (append_reserved BitVec.and_allOnes.symm))

theorem selector_ofSelector (b : BitVec 2) : (RateType.ofSelector b).selector = b := by
  revert b
  decide

/-! ### The three registers of the LTC word -/

/-- An LTC word laid out as its three registers reads so (R43). -/
theorem words_append (top : BitVec 16) (mid low : Word) :
    word0 (top ++ mid ++ low) = low ∧ word1 (top ++ mid ++ low) = mid ∧
      word2 (top ++ mid ++ low) = 0#16 ++ top := by
  refine ⟨BitVec.extractLsb'_append_eq_right, ?_, ?_⟩
  · rw [word1, BitVec.extractLsb'_append_eq_of_le (by decide)]
    exact BitVec.extractLsb'_append_eq_right
  · rw [word2, BitVec.extractLsb'_append_eq_of_le (by decide)]
    exact congrArg (0#16 ++ ·) BitVec.extractLsb'_append_eq_left

theorem words_withWord0 (w : LtcWord) (v : Word) :
    word0 (withWord0 w v) = v ∧ word1 (withWord0 w v) = word1 w ∧ word2 (withWord0 w v) = word2 w := by
  have top : w.extractLsb' 64 16 ++ w.extractLsb' 32 32 = w.extractLsb' 32 48 :=
    BitVec.extractLsb'_append_extractLsb'_eq_extractLsb' rfl
  rw [withWord0, ← top]
  exact words_append _ _ v

theorem words_withWord1 (w : LtcWord) (v : Word) :
    word0 (withWord1 w v) = word0 w ∧ word1 (withWord1 w v) = v ∧ word2 (withWord1 w v) = word2 w :=
  words_append _ v _

theorem words_withWord2 (w : LtcWord) (v : Word) :
    word0 (withWord2 w v) = word0 w ∧ word1 (withWord2 w v) = word1 w ∧
      word2 (withWord2 w v) = 0#16 ++ v.extractLsb' 0 16 := by
  have low : w.extractLsb' 32 32 ++ w.extractLsb' 0 32 = w.extractLsb' 0 64 :=
    BitVec.extractLsb'_append_extractLsb'_eq_extractLsb' rfl
  have assoc := BitVec.append_assoc (x₁ := v.extractLsb' 0 16) (x₂ := w.extractLsb' 32 32)
    (x₃ := w.extractLsb' 0 32)
  rw [withWord2, ← low]
  exact assoc ▸ words_append _ _ _

/-! ### What a register reads after a write -/

/-- A read-write register reads the defined bits of the value written to it (R49, R82). -/
theorem readReg_writeReg_same {r : Reg} (v : Word) (s : State) (hr : r = .irqEn ∨ r ∈ guarded) :
    readReg r (writeReg r v s) = v &&& ~~~(reservedBits r) := by
  cases r with
  | id | cmd | status | cause => exact absurd hr (by decide)
  | irqEn => exact irqEnPack_unpack v
  | tc => exact tcPack_unpack v
  | enc => exact encPack_unpack v
  | srate | span | frames => exact BitVec.and_allOnes.symm
  | rate =>
    have hm : ~~~(reservedBits .rate) = 0#30 ++ BitVec.allOnes 2 := by decide
    rw [hm, readReg, writeReg, selector_ofSelector]
    exact and_of_fields (append_kept BitVec.and_zero.symm)
  | amp =>
    have hm : ~~~(reservedBits .amp) = 0#17 ++ BitVec.allOnes 15 := by decide
    rw [hm]
    exact and_of_fields (append_kept BitVec.and_zero.symm)
  | word0 => exact (words_withWord0 s.word v).1.trans BitVec.and_allOnes.symm
  | word1 => exact (words_withWord1 s.word v).2.1.trans BitVec.and_allOnes.symm
  | word2 =>
    have hm : ~~~(reservedBits .word2) = 0#16 ++ BitVec.allOnes 16 := by decide
    rw [hm]
    exact (words_withWord2 s.word v).2.2.trans (and_of_fields (append_kept BitVec.and_zero.symm))

/-- No other register reads differently after it; a write to STATUS, which clears CAUSE with ERR, is
the one exception (R46, R82). -/
theorem readReg_writeReg_other {r q : Reg} (v : Word) (s : State) (hr : r ≠ .status) (hq : q ≠ r) :
    readReg q (writeReg r v s) = readReg q s := by
  cases r with
  | status => exact absurd rfl hr
  | word0 =>
    obtain ⟨-, h1, h2⟩ := words_withWord0 s.word v
    cases q with
    | word0 => exact absurd rfl hq
    | word1 => exact h1
    | word2 => exact h2
    | _ => rfl
  | word1 =>
    obtain ⟨h0, -, h2⟩ := words_withWord1 s.word v
    cases q with
    | word0 => exact h0
    | word1 => exact absurd rfl hq
    | word2 => exact h2
    | _ => rfl
  | word2 =>
    obtain ⟨h0, h1, -⟩ := words_withWord2 s.word v
    cases q with
    | word0 => exact h0
    | word1 => exact h1
    | word2 => exact absurd rfl hq
    | _ => rfl
  | _ => cases q <;> first | exact absurd rfl hq | rfl

/-- A write leaves the schedule and the records of sink and host alone. -/
theorem writeReg_keeps_environment (r : Reg) (v : Word) (s : State) :
    (writeReg r v s).sent = s.sent ∧ (writeReg r v s).reads = s.reads ∧
      (writeReg r v s).schedule = s.schedule := by
  cases r <;> exact ⟨rfl, rfl, rfl⟩

/-- A write to IRQ_EN is performed at any time, one to a guarded register in an idle block, with PHASE
below L where it is ENC (R54, R305). -/
theorem storeReg_accepted {r : Reg} {v : Word} {s : State} (off : Byte)
    (hr : r = .irqEn ∨ (r ∈ guarded ∧ s.running = none))
    (hp : r = .enc → (v.extractLsb' 0 20).toNat < Config.phaseDen) :
    storeReg r off v s = writeReg r v s := by
  rcases hr with rfl | ⟨hg, idle⟩
  · rfl
  have hb : ¬ s.busy = true := by simp [State.busy, idle]
  have hphase : ¬ (r = .enc ∧ Config.phaseDen ≤ (v.extractLsb' 0 20).toNat) :=
    fun h => absurd (hp h.1) (Nat.not_lt.2 h.2)
  cases r with
  | id | cmd | status | cause | irqEn => exact absurd hg (by decide)
  | _ => exact (if_neg hb).trans (if_neg hphase)

/-- Settles O13: the write is performed, and its value is read back field by field. -/
theorem writeThenReadReturnsDefinedBits : Obligations.WriteThenReadReturnsDefinedBits := by
  intro s r v rest out hr hp
  have hrw : r = .irqEn ∨ r ∈ guarded := hr.imp_right And.left
  have hc : r ≠ .cmd := by
    rintro rfl
    exact absurd hrw (by decide)
  have hs : r ≠ .status := by
    rintro rfl
    exact absurd hrw (by decide)
  obtain ⟨hrun, hlatch, -⟩ := writeReg_keeps_control r v { s with schedule := rest }
  obtain ⟨hsent, hreads, hsched⟩ := writeReg_keeps_environment r v { s with schedule := rest }
  refine ⟨writeReg r v { s with schedule := rest }, ?_, readReg_writeReg_same v _ hrw, fun q hq => ?_,
    hrun, hlatch, hsent, hreads, hsched⟩
  · rw [step_write_register v rest out hc]
    exact congrArg _ (storeReg_accepted _ hr hp)
  · exact (readReg_writeReg_other v _ hs hq).trans (readReg_withSchedule q s rest)

end Sys2Proof.Proofs
end

section
/-! PROOFS. The sample port: how a frame goes out under the handshake, the end of RENDER, and that a
sample leaves the port only by its one transfer or by reset. -/

namespace Sys2Proof.Proofs

open Sys2Proof Sys2Proof.Machine Sys2Proof.Laws Sys2Proof.Statements

/-! ### The running polarity at a sample -/

theorem enterHalfCell_even (w : LtcWord) (k : Nat) (p : Polarity) :
    enterHalfCell w (2 * k) p = p.flip := by
  rw [enterHalfCell, if_pos (by omega)]

theorem enterHalfCell_odd (w : LtcWord) (k : Nat) (p : Polarity) :
    enterHalfCell w (2 * k + 1) p = if w.getLsbD k then p.flip else p := by
  rw [enterHalfCell, if_neg (by omega), (by omega : (2 * k + 1) / 2 = k)]

/-- At the first sample of a half-cell the running polarity is that on entering it (R222). -/
theorem polarityAt_boundary (w : LtcWord) {S : Nat} (j : Nat) (p : Polarity) (hS : 160 ≤ S) :
    polarityAt w S (boundary S j) p = enterHalfCell w j p := by
  have hj : halfCellOf S (boundary S j) = j :=
    (halfCellOf_eq_iff S _ j (by omega)).2 ⟨le_rfl, boundary_lt_succ S j hS⟩
  rw [polarityAt, hj, if_pos rfl]

/-- Inside a half-cell it does not change (R222). -/
theorem polarityAt_inside (w : LtcWord) {S n : Nat} (p : Polarity) (hS : 160 ≤ S) (hn : n < S)
    (inside : ∀ j < 160, n ≠ boundary S j) : polarityAt w S n p = p := by
  rw [polarityAt, if_neg (inside _ (halfCellOf_lt S n (by omega) hn))]

/-- Settles O34: the three cases of `emission`, and where the next sample lies in its half-cell. -/
theorem emissionFollowsHandshake : Obligations.EmissionFollowsHandshake := by
  intro s i n p hi hr hS hn
  have hemits : emits i = true := by rcases hi with rfl | rfl | rfl <;> rfl
  rw [exec_emit hemits hr, emission]
  refine ⟨fun wait => ?_, fun ready last => ?_, fun ready more => ?_⟩
  · rw [if_neg (by simp [wait])]
  · rw [if_pos ready, if_neg (by omega)]
    rfl
  · rw [if_pos ready, if_pos more]
    refine ⟨polarityAt s.word s.span.toNat (n + 1) s.runPol, rfl, fun k _ hb => ?_, fun k _ hb => ?_,
      polarityAt_inside _ _ hS more⟩
    · rw [hb, polarityAt_boundary _ _ _ hS, enterHalfCell_even]
    · rw [hb, polarityAt_boundary _ _ _ hS, enterHalfCell_odd]

/-- Settles O35: the commit and the completion of RENDER. -/
theorem renderCommitsPolarityAndCompletes : Obligations.RenderCommitsPolarityAndCompletes :=
  fun _ => ⟨exec_render_commit, exec_render_finish⟩

/-! ### What an update sends -/

/-- Only an update with a sample on the port sends one (R87). -/
theorem exec_sent {s t : State} {i : Instr} {p : Phase} (hr : s.running = some ⟨i, p⟩)
    (hp : ∀ n q, p ≠ .emit n q) (e : exec i s = .next t) : t.sent = s.sent := by
  cases i with
  | nop | segreset => cases e; rfl
  | advance | build | nextspan =>
    cases e
    split_ifs <;> rfl
  | abort =>
    simp only [exec, execAbort, hr, if_true] at e
    cases e
    rfl
  | render =>
    cases p with
    | start =>
      rw [exec_render_start (phaseOf_start (.inr hr))] at e
      cases e
      split_ifs <;> rfl
    | emit n q => exact absurd rfl (hp n q)
    | commit => rw [exec_render_commit hr] at e; cases e; rfl
    | finish => rw [exec_render_finish hr] at e; cases e; rfl
  | frame =>
    cases p with
    | start =>
      have start := phaseOf_start (.inr hr)
      cases hf : frameFault s with
      | none => rw [exec_frame_start start hf] at e; cases e; rfl
      | some c => rw [exec_frame_fault start hf] at e; cases e; rfl
    | emit n q => exact absurd rfl (hp n q)
    | commit => rw [exec_frame_commit hr] at e; cases e; rfl
    | finish => rw [exec_frame_finish hr] at e; cases e; rfl
  | generate =>
    cases p with
    | start =>
      have start := phaseOf_start (.inr hr)
      by_cases h0 : s.frames = 0#32
      · rw [exec_generate_none start h0] at e; cases e; rfl
      · cases hf : frameFault s with
        | none => rw [exec_generate_start start h0 hf] at e; cases e; rfl
        | some c => rw [exec_generate_fault start h0 hf] at e; cases e; rfl
    | emit n q => exact absurd rfl (hp n q)
    | commit => rw [exec_generate_commit hr] at e; cases e; rfl
    | finish =>
      rw [exec_generate_finish hr] at e
      cases e
      unfold frameBoundary
      split_ifs <;> rfl

/-! ### The port from one state to the next -/

/-- What R87 and R340 allow between `s` and `t`: the sample on the port stays, is transferred, or is
dropped by reset, and the sink receives no other. -/
def PortRule (s t : State) : Prop :=
  (∀ p, s.port = some p →
    (t.port = some p ∧ t.sent = s.sent) ∨ (t.sent = p :: s.sent ∧ s.smpReady = true) ∨
    (t.rst = true ∧ t.port = none ∧ t.sent = s.sent)) ∧
  (s.port = none → t.sent = s.sent)

theorem portRule_of_kept {s t : State} (run : t.running = s.running) (sent : t.sent = s.sent) :
    PortRule s t := by
  have port : t.port = s.port := by rw [State.port, run, State.port]
  exact ⟨fun p hp => .inl ⟨port.trans hp, sent⟩, fun _ => sent⟩

theorem portRule_of_no_sample {s t : State} (empty : s.port = none) (sent : t.sent = s.sent) :
    PortRule s t :=
  ⟨fun p hp => by simp [empty] at hp, fun _ => sent⟩

theorem port_of_idle {s : State} (idle : s.running = none) : s.port = none := by
  simp [State.port, idle]

theorem port_in_reset {s : State} (h : Inv s) (hr : s.rst = true) : s.port = none := by
  rw [h.reset hr, resetBlock_port]

/-- With a sample on the port the update is `emission`: it waits, or makes the one transfer. -/
theorem portRule_emission {s : State} {i : Instr} {n : Nat} {p : PortSample}
    (hr : s.running = some ⟨i, .emit n p⟩) : PortRule s (emission i n p s) := by
  have hport : s.port = some p := port_eq_some.2 ⟨i, n, hr⟩
  rcases emission_cases i n p s with ⟨-, e⟩ | ⟨ready, -, e⟩ | ⟨ready, -, e⟩ <;> rw [e]
  · exact portRule_of_kept rfl rfl
  all_goals
    refine ⟨fun q hq => ?_, fun hq => by simp [hport] at hq⟩
    obtain rfl : p = q := Option.some.inj (hport.symm.trans hq)
    exact .inr (.inl ⟨rfl, ready⟩)

theorem portRule_exec {s t : State} {i : Instr} {p : Phase} (h : Inv s)
    (hr : s.running = some ⟨i, p⟩) (e : exec i s = .next t) : PortRule s t := by
  cases p with
  | emit n q =>
    have held := h.progress
    rw [ProgressOk, hr] at held
    rw [exec_emit held.1.emits hr] at e
    cases e
    exact portRule_emission hr
  | _ => exact portRule_of_no_sample (by simp [State.port, hr]) (exec_sent hr (by simp) e)

theorem portRule_coreStep {s t : State} (h : Inv s) (e : coreStep s = .next t) : PortRule s t := by
  rcases coreStep_cases e with rfl | ⟨-, r, hr, e⟩
  · exact portRule_of_kept rfl rfl
  · exact portRule_exec h hr e

/-- Reset drops the sample; a block already in reset has none (R340). -/
theorem portRule_rstTurn {s : State} (h : Inv s) (level : Bool) : PortRule s (rstTurn level s) := by
  have sent : (rstTurn level s).sent = s.sent := by
    unfold rstTurn
    split <;> rfl
  by_cases hr : s.rst = true
  · exact portRule_of_no_sample (port_in_reset h hr) sent
  · cases level with
    | true => exact ⟨fun _ _ => .inr (.inr ⟨rfl, rfl, sent⟩), fun _ => sent⟩
    | false =>
      have same : rstTurn false s = s := if_neg (by simpa using hr)
      rw [same]
      exact portRule_of_kept rfl rfl

theorem portRule_hostRead (off : Byte) (width : Nat) (s : State) :
    PortRule s (hostRead off width s) := by
  rcases hostRead_cases off width s with ⟨v, e⟩ | ⟨-, -, e⟩ <;> rw [e] <;>
    exact portRule_of_kept rfl rfl

theorem portRule_storeReg (r : Reg) (off : Byte) (v : Word) (s : State) :
    PortRule s (storeReg r off v s) := by
  obtain ⟨run, -⟩ := writeReg_keeps_control r v s
  obtain ⟨sent, -⟩ := writeReg_keeps_environment r v s
  rcases storeReg_cases r off v s with e | ⟨-, e⟩ | e | ⟨-, e⟩ | ⟨-, -, e⟩ <;> rw [e]
  case inr.inr.inr.inr => exact portRule_of_kept run sent
  all_goals exact portRule_of_kept rfl rfl

theorem useCoreTurn_sent (s : State) : (useCoreTurn s).sent = s.sent := by
  unfold useCoreTurn
  split <;> rfl

/-- No access of the host touches a sample on the port: a command is accepted only in an idle block. -/
theorem portRule_hostStep {a : Access} {s t : State} (e : hostStep a s = .next t) : PortRule s t := by
  rcases hostStep_cases e with ⟨off, width, -, rfl⟩ | ⟨-, rfl⟩ | ⟨-, hw⟩
  · exact portRule_hostRead off width s
  · exact portRule_of_kept rfl rfl
  · rcases hw with ⟨off, width, v, -, -, rfl⟩ | ⟨r, v, -, -, rfl⟩ | ⟨v, -, hc⟩
    · exact portRule_of_kept rfl rfl
    · exact portRule_storeReg r _ v s
    · rcases hc with ⟨-, -, rfl⟩ | ⟨-, -, rfl⟩ | ⟨idle, -, rfl⟩ | ⟨idle, i, -, hi⟩
      · exact portRule_of_kept (requestAbort_running s) (requestAbort_sent s)
      · exact portRule_of_kept rfl rfl
      · exact portRule_of_no_sample (port_of_idle (running_of_not_busy idle)) rfl
      · refine portRule_of_no_sample (port_of_idle (running_of_not_busy idle)) ?_
        rcases hi with ⟨-, rfl⟩ | ⟨-, e⟩
        · rfl
        · obtain ⟨-, hrun⟩ := useCoreTurn_keeps_block (accept i s)
          exact (exec_sent hrun (by simp) e).trans (useCoreTurn_sent _)

/-- Settles O57: each turn a step can be keeps to the rule of the port. -/
theorem portHoldsSampleUntilTransfer : Obligations.PortHoldsSampleUntilTransfer := by
  intro s t h e
  have hpop := inv_popTurn h
  rcases step_cases e with e | e | ⟨-, rfl⟩ | ⟨ready, rfl⟩ | ⟨level, rfl⟩ | ⟨a, e⟩
  · exact portRule_coreStep h e
  · exact portRule_coreStep (s := popTurn s) hpop e
  · exact portRule_hostRead _ _ (popTurn s)
  · exact portRule_of_kept (s := s) rfl rfl
  · exact portRule_rstTurn (s := popTurn s) hpop level
  · exact portRule_hostStep (s := popTurn s) e

end Sys2Proof.Proofs
end

section
/-! PROOFS. The command word's encoding, and what a word written to CMD leads to: a command accepted, with
or without its first update, an illegal word, and ABORT beside a running command. -/

namespace Sys2Proof.Proofs

open Sys2Proof Sys2Proof.Machine Sys2Proof.Laws Sys2Proof.Statements

/-! ### The opcode map -/

/-- The opcode map gives a command at that command's opcode only (R111). -/
theorem decodeOp_eq_some_iff (op : BitVec 4) (i : Instr) : decodeOp op = some i ↔ op = i.op := by
  revert op
  cases i <;> decide

/-- The opcode map has nine rows (R111, R113). -/
theorem decodeOp_eq_none_iff (op : BitVec 4) : decodeOp op = none ↔ 9 ≤ op.toNat := by
  revert op
  decide

/-- A command's word is its opcode under zero reserved bits (R110). -/
theorem encode_eq_op (i : Instr) : encode i = 0#28 ++ i.op := by
  cases i <;> decide

/-! ### The decoder -/

theorem decode_of_rsvdField_ne {v : Word} (hr : rsvdField v ≠ 0#28) : decode v = .reject .reservedBits :=
  if_pos hr

theorem decode_of_opField_reserved {v : Word} (hr : rsvdField v = 0#28) (ho : 9 ≤ (opField v).toNat) :
    decode v = .reject .reservedOpcode := by
  simp only [decode, hr, (decodeOp_eq_none_iff _).2 ho, ne_eq, not_true_eq_false, if_false]

theorem decode_of_decodeOp {v : Word} {i : Instr} (hr : rsvdField v = 0#28)
    (ho : decodeOp (opField v) = some i) : decode v = .command i := by
  simp only [decode, hr, ho, ne_eq, not_true_eq_false, if_false]

/-- A word with a zero reserved field and one of the nine opcodes is a command (R110, R111). -/
theorem exists_decode_of_opField_lt {v : Word} (hr : rsvdField v = 0#28) (ho : (opField v).toNat < 9) :
    ∃ i, decode v = .command i := by
  cases hd : decodeOp (opField v) with
  | none => exact absurd ((decodeOp_eq_none_iff _).1 hd) (Nat.not_le.2 ho)
  | some i => exact ⟨i, decode_of_decodeOp hr hd⟩

/-- A word with a reserved bit or a reserved opcode is rejected (R113). -/
theorem decode_rejects_of_reserved {v : Word} (h : rsvdField v ≠ 0#28 ∨ 9 ≤ (opField v).toNat) :
    ∃ e, decode v = .reject e := by
  by_cases hr : rsvdField v = 0#28
  · exact ⟨_, decode_of_opField_reserved hr (h.resolve_left (not_not_intro hr))⟩
  · exact ⟨_, decode_of_rsvdField_ne hr⟩

/-- A word that decodes to a command has that command's fields. -/
theorem fields_of_decode {v : Word} {i : Instr} (h : decode v = .command i) :
    rsvdField v = 0#28 ∧ opField v = i.op := by
  have hr : rsvdField v = 0#28 := by
    by_contra hr
    rw [decode_of_rsvdField_ne hr] at h
    cases h
  cases hd : decodeOp (opField v) with
  | none =>
    rw [decode_of_opField_reserved hr ((decodeOp_eq_none_iff _).1 hd)] at h
    cases h
  | some j =>
    rw [decode_of_decodeOp hr hd] at h
    cases h
    exact ⟨hr, (decodeOp_eq_some_iff _ _).1 hd⟩

theorem decode_eq_command_iff (v : Word) (i : Instr) : decode v = .command i ↔ encode i = v := by
  constructor
  · intro h
    obtain ⟨hr, ho⟩ := fields_of_decode h
    rw [word_eq_fields v, hr, ho, encode_eq_op]
  · rintro rfl
    exact decode_encode i

/-- The four byte lanes of a word make up that word (R84). -/
theorem ofLanes_lanes (v : Word) :
    ofLanes (v.extractLsb' 0 8) (v.extractLsb' 8 8) (v.extractLsb' 16 8) (v.extractLsb' 24 8) = v := by
  have h16 : v.extractLsb' 24 8 ++ v.extractLsb' 16 8 = v.extractLsb' 16 16 :=
    BitVec.extractLsb'_append_extractLsb'_eq_extractLsb' rfl
  have h8 : v.extractLsb' 16 16 ++ v.extractLsb' 8 8 = v.extractLsb' 8 24 :=
    BitVec.extractLsb'_append_extractLsb'_eq_extractLsb' rfl
  have h0 : v.extractLsb' 8 24 ++ v.extractLsb' 0 8 = v.extractLsb' 0 32 :=
    BitVec.extractLsb'_append_extractLsb'_eq_extractLsb' rfl
  rw [ofLanes, h16, h8, h0, BitVec.extractLsb'_eq_self, BitVec.cast_eq]

theorem decodeBytes_lanes (v : Word) : decodeBytes (lanes v) = decode v :=
  congrArg decode (ofLanes_lanes v)

/-- Settles O2: a decoded word is put together again from its fields, and its lanes are the word. -/
theorem decodeInvertsEncode : Obligations.DecodeInvertsEncode := by
  intro v i
  rw [decodeBytes_lanes]
  exact ⟨decode_eq_command_iff v i, decode_eq_command_iff v i⟩

/-- Settles O3: below 16 the reserved field is 0 and OP is the word. -/
theorem decodeRejectsReservedWords : Obligations.DecodeRejectsReservedWords := by
  intro v
  have hfields : v.toNat < 16 → rsvdField v = 0#28 ∧ (opField v).toNat = v.toNat := fun h =>
    ⟨BitVec.eq_of_toNat_eq ((rsvdField_toNat v).trans (Nat.div_eq_of_lt h)),
      (opField_toNat v).trans (Nat.mod_eq_of_lt h)⟩
  refine ⟨fun h => decode_of_rsvdField_ne fun hr => h ?_, fun h9 h16 => ?_, fun h9 => ?_⟩
  · rw [← rsvdField_toNat, hr]
    rfl
  · obtain ⟨hr, ho⟩ := hfields h16
    exact decode_of_opField_reserved hr (ho ▸ h9)
  · obtain ⟨hr, ho⟩ := hfields (by omega)
    have hlt : (opField v).toNat < 9 := ho ▸ h9
    obtain ⟨i, hi⟩ := exists_decode_of_opField_lt hr hlt
    refine ⟨i, hi, ?_⟩
    rw [wellFormedCommandWord, Bool.and_eq_true, beq_iff_eq, decide_eq_true_iff]
    exact ⟨hr, hlt⟩

/-- Settles O1: each word of the table is the encoding of its row's command. -/
theorem decodeReadsEachTableWord : Obligations.DecodeReadsEachTableWord :=
  ⟨decode_encode .nop, decode_encode .advance, decode_encode .build, decode_encode .nextspan,
    decode_encode .render, decode_encode .frame, decode_encode .generate, decode_encode .segreset,
    decode_encode .abort⟩

/-! ### Words written to CMD -/

/-- Settles O7: the word is rejected, and the word of NOP is 0. -/
theorem illegalWordRaisesIllegalCmd : Obligations.IllegalWordRaisesIllegalCmd := by
  intro s v rest out idle
  refine ⟨fun illegal => ?_, (decode_eq_command_iff v .nop).trans eq_comm⟩
  obtain ⟨e, he⟩ := decode_rejects_of_reserved illegal
  exact step_write_illegal rest out idle he

/-- A write turn to CMD of a command's word, the block idle and the next turn another agent's (R112). -/
theorem hostStep_command_accepted {s : State} {v : Word} {i : Instr} (hd : decode v = .command i)
    (out : s.rst = false) (idle : s.running = none) (hc : coreIsNext s.schedule = false) :
    hostStep (.write (offsetOf .cmd) 32 v) s = .next (accept i s) := by
  simp [hostStep, hostAccess, out, busWrite, admitted_offsetOf, issue, State.busy, idle, hd, hc]

/-- Settles O4: the turn after the write is not the block's, so the acceptance is the whole step. -/
theorem cmdWriteAcceptsLegalCommand : Obligations.CmdWriteAcceptsLegalCommand := by
  intro s i rest out idle hc
  rw [step_hostTurn]
  exact hostStep_command_accepted (decode_encode i) out idle hc

/-- Settles O5: each schedule gives the block the turn after the write, which uses up a turn given to it
and no other. -/
theorem stepRunsDecodedCommand : Obligations.StepRunsDecodedCommand := by
  intro s v i rest hd
  refine ⟨fun out idle => ?_, ?_⟩
  · have hstep (next : List Turn) (hc : coreIsNext next = true) :
        step (hostTurn (write32 (offsetOf .cmd) v) next s) =
          exec i (useCoreTurn { s with schedule := next, running := some ⟨i, .start⟩ }) := by
      rw [step_hostTurn]
      exact hostStep_command hd out idle hc
    exact ⟨hstep [] rfl, hstep (.core :: rest) rfl, hstep (.wait :: rest) rfl⟩
  · obtain rfl := (decode_eq_command_iff v i).1 hd
    exact step_withFetchWord { s with rst := false } i rfl

/-- A write turn to CMD of ABORT's word while BUSY = 1 (R112, R276). -/
theorem hostStep_abort_busy {s : State} (out : s.rst = false) (busy : s.busy = true) :
    hostStep (.write (offsetOf .cmd) 32 (encode .abort)) s = .next (requestAbort s) := by
  simp [hostStep, hostAccess, out, busWrite, admitted_offsetOf, issue, busy]

/-- Settles O8: the word is ABORT's, and ABORT beside a running command changes at most the latch. -/
theorem abortWordWhileBusy : Obligations.AbortWordWhileBusy := by
  intro s i p rest out hr
  have busy : s.busy = true := by simp [State.busy, hr]
  have hstep : step (hostTurn (write32 (offsetOf .cmd) (encode .abort)) rest s) =
      .next (requestAbort { s with schedule := rest }) := by
    rw [step_hostTurn]
    exact hostStep_abort_busy out busy
  refine hstep.trans ?_
  simp [requestAbort_eq, hr]

end Sys2Proof.Proofs
end

section
/-! PROOFS. The bits of a built word that no timecode changes: the sync word, and the zeros of the user and
reserved positions. -/

namespace Sys2Proof.Proofs

open Sys2Proof Sys2Proof.Machine Sys2Proof.Laws

/-- The sync word stands at the top of every built word, in position order (R121). -/
theorem getLsbD_buildWord_sync (t : Timecode) (r : RateType) {k : Nat} (hk : k < 16) :
    (buildWord t r).getLsbD (64 + k) = Config.syncBits.getD k false := by
  rw [getLsbD_buildWord, if_neg (by omega), getLsbD_wordFields, if_pos (by omega), Nat.add_sub_cancel_left]

/-- WORD2 is the sync word read as a number (R121, R195). -/
theorem word2_buildWord (t : Timecode) (r : RateType) : word2 (buildWord t r) = 0x0000BFFC#32 := by
  have hsync : ∀ k < 16, (0xBFFC#16).getLsbD k = Config.syncBits.getD k false := by decide
  have htop : (buildWord t r).extractLsb' 64 16 = 0xBFFC#16 := by
    apply BitVec.eq_of_getLsbD_eq
    intro k hk
    rw [BitVec.getLsbD_extractLsb', getLsbD_buildWord_sync t r hk, hsync k hk]
    simp [hk]
  rw [word2, htop]
  decide

/-- Settles O27: the sync positions hold the sync word, and the others lie in no field. -/
theorem builtWordFixedBits : Obligations.BuiltWordFixedBits := by
  intro t r
  refine ⟨?_, word2_buildWord t r, fun k hk => ?_⟩
  · exact List.map_congr_left fun k hk => getLsbD_buildWord_sync t r (List.mem_range.1 hk)
  · rw [getLsbD_buildWord, getLsbD_wordFields]
    fin_cases hk <;> rfl

end Sys2Proof.Proofs
end

section
/-! PROOFS. Timecode arithmetic: how a command's end is written in the statements, ADVANCE, the cases of the
carry chain, the validity it keeps, and the counts of drop-frame blocks and of a day. -/

namespace Sys2Proof.Proofs

open Sys2Proof Sys2Proof.Machine Sys2Proof.Laws Sys2Proof.Statements

/-! ### The end of a command -/

theorem complete_eq_ended (s : State) : complete s = ended s := rfl

theorem raise_eq_endedWith (c : Cause) (i : Instr) (s : State) : raise c i s = endedWith c i s := rfl

/-- Settles O20: the two cases of the validity check. -/
theorem advanceWritesAdvancedTimecode : Obligations.AdvanceWritesAdvancedTimecode := by
  intro s
  rw [exec_advance, tcValid]
  refine ⟨fun hv => ?_, fun hv => ?_⟩
  · rw [if_pos hv, complete_eq_ended, advanceTc]
  · rw [if_neg (by simp [hv]), raise_eq_endedWith]

/-! ### The carry chain, one lemma per place at which the carry stops (R161) -/

theorem advance_of_frame_ne {h m s f : Nat} {r : RateType} (hf : f + 1 ≠ r.div) :
    advance ⟨h, m, s, f⟩ r = ⟨h, m, s, f + 1⟩ := by
  simp [advance, hf]

theorem advance_of_second_ne {h m s f : Nat} {r : RateType} (hf : f + 1 = r.div) (hs : s ≠ 59) :
    advance ⟨h, m, s, f⟩ r = ⟨h, m, s + 1, 0⟩ := by
  simp [advance, hf, hs]

theorem advance_of_minute_ne {h m s f : Nat} {r : RateType} (hf : f + 1 = r.div) (hs : s = 59)
    (hm : m ≠ 59) : advance ⟨h, m, s, f⟩ r = ⟨h, m + 1, 0, firstFrame (m + 1) r⟩ := by
  simp [advance, hf, hs, hm]

/-- Minute 00 is a multiple of 10, so the hour's carry skips no frame (R162). -/
theorem advance_of_minute_eq {h m s f : Nat} {r : RateType} (hf : f + 1 = r.div) (hs : s = 59)
    (hm : m = 59) : advance ⟨h, m, s, f⟩ r = ⟨(h + 1) % 24, 0, 0, 0⟩ := by
  simp [advance, hf, hs, hm, firstFrame]

theorem firstFrame_eq (m : Nat) (r : RateType) :
    firstFrame m r = if r = .fps2997 ∧ m % 10 ≠ 0 then 2 else 0 := by
  cases r <;> simp [firstFrame, RateType.dropFrame]

theorem hour_carry {h : Nat} (hh : h ≤ 23) : (h + 1) % 24 = if h = 23 then 0 else h + 1 := by
  split <;> omega

/-- R33, each component at its own bound. -/
theorem valid_iff {h m s f : Nat} {r : RateType} :
    Timecode.valid ⟨h, m, s, f⟩ r = true ↔ h ≤ 23 ∧ m ≤ 59 ∧ s ≤ 59 ∧ f < r.div := by
  have hpos : 0 < r.div := by cases r <;> decide
  simp only [Timecode.valid, Bool.and_eq_true, decide_eq_true_eq, and_assoc]
  omega

/-- Settles O21: its clauses are the four places at which the carry stops. -/
theorem advanceIsTheCarryChain : Obligations.AdvanceIsTheCarryChain := by
  intro h m s f r hv
  obtain ⟨hh, -⟩ := valid_iff.1 hv
  refine ⟨fun hf => advance_of_frame_ne hf.ne, fun hf hs => advance_of_second_ne hf hs.ne,
    fun hf hs hm => ?_, fun hf hs hm => ?_⟩
  · rw [advance_of_minute_ne hf hs hm.ne, firstFrame_eq]
  · rw [advance_of_minute_eq hf hs hm, hour_carry hh]

/-! ### Validity -/

theorem firstFrame_lt_div (m : Nat) (r : RateType) : firstFrame m r < r.div := by
  rw [firstFrame_eq]
  cases r <;> simp only [RateType.div] <;> split <;> omega

/-- R163: wherever the carry stops, each component stays within its bound. -/
theorem valid_advance {t : Timecode} {r : RateType} (hv : t.valid r = true) :
    (advance t r).valid r = true := by
  obtain ⟨h, m, s, f⟩ := t
  obtain ⟨hh, hm, hs, hf⟩ := valid_iff.1 hv
  by_cases hcf : f + 1 = r.div
  · by_cases hcs : s = 59
    · by_cases hcm : m = 59
      · rw [advance_of_minute_eq hcf hcs hcm, valid_iff]
        omega
      · rw [advance_of_minute_ne hcf hcs hcm, valid_iff]
        have := firstFrame_lt_div (m + 1) r
        omega
    · rw [advance_of_second_ne hcf hcs, valid_iff]
      omega
  · rw [advance_of_frame_ne hcf, valid_iff]
    omega

/-- Each update that advances TC writes the packed advance of it and leaves RATE alone (R160, R272, R275). -/
theorem exec_advances_tc {s t : State} (hv : s.tc.value.valid s.rate = true)
    (e : exec .advance s = .next t ∨
      (s.running = some ⟨.frame, .commit⟩ ∧ exec .frame s = .next t) ∨
      (s.running = some ⟨.generate, .commit⟩ ∧ exec .generate s = .next t)) :
    t.tc = TcReg.ofTimecode (advance s.tc.value s.rate) ∧ t.rate = s.rate := by
  rcases e with e | ⟨hr, e⟩ | ⟨hr, e⟩
  · rw [exec_advance, tcValid, if_pos hv] at e
    cases e
    exact ⟨rfl, rfl⟩
  · rw [exec_frame_commit hr] at e
    cases e
    exact ⟨rfl, rfl⟩
  · rw [exec_generate_commit hr] at e
    cases e
    exact ⟨rfl, rfl⟩

/-- Settles O22: TC is the packed advance, which is valid and so held without loss. -/
theorem advanceKeepsTimecodeValid : Obligations.AdvanceKeepsTimecodeValid := by
  refine ⟨fun t r hv => valid_advance hv, fun s t hv e => ?_⟩
  obtain ⟨htc, hrate⟩ := exec_advances_tc hv e
  have hvalue : t.tc.value = advance s.tc.value s.rate := by
    rw [htc, value_ofTimecode (valid_advance hv)]
  refine ⟨hvalue, ?_⟩
  rw [hvalue, hrate]
  exact valid_advance hv

/-! ### Counts of advances, by the position in the day (R165 to R167) -/

/-- `k` advances lead from one counted timecode to another exactly when their positions are `k` apart,
around the day. -/
theorem tick_iterate_eq_iff {r : RateType} {t u : Timecode} (ht : Counted r t) (hu : Counted r u) (k : Nat) :
    (tick r)^[k] t = u ↔ (frameIndex r t + k) % dayLength r = frameIndex r u := by
  obtain ⟨hc, e⟩ : Counted r ((tick r)^[k] t) ∧
      frameIndex r ((tick r)^[k] t) % dayLength r = (frameIndex r t + k) % dayLength r :=
    counted_iterate r t ht k
  rw [Nat.mod_eq_of_lt (frameIndex_lt r _ hc)] at e
  rw [← e]
  exact ⟨fun h => by rw [h], frameIndex_inj r _ u hc hu⟩

theorem counted_midnight (r : RateType) : Counted r midnight := by
  cases r <;> simp [Counted, midnight, RateType.div]

theorem framesPerDay_eq_dayLength (r : RateType) : framesPerDay r = dayLength r := by
  cases r <;> rfl

/-- The advances that lead from midnight back to it are the multiples of the day. -/
theorem tick_iterate_midnight_iff (r : RateType) (k : Nat) :
    (tick r)^[k] midnight = midnight ↔ framesPerDay r ∣ k := by
  have h0 : frameIndex r midnight = 0 := by cases r <;> rfl
  rw [tick_iterate_eq_iff (counted_midnight r) (counted_midnight r), h0, Nat.zero_add,
    framesPerDay_eq_dayLength, Nat.dvd_iff_mod_eq_zero]

/-- Settles O23: a positive number below the day is no multiple of it. -/
theorem advanceCycleClosure : Obligations.AdvanceCycleClosure := by
  intro r
  refine ⟨(tick_iterate_midnight_iff r _).2 dvd_rfl, fun k hpos hlt hk => ?_⟩
  exact Nat.not_dvd_of_pos_of_lt hpos hlt ((tick_iterate_midnight_iff r k).1 hk)

/-- Every block of ten minutes begins with a frame that is not skipped (R162). -/
theorem counted_blockStart {h m : Nat} (hh : h < 24) (hm : m < 60) (h10 : m % 10 = 0) :
    Counted .fps2997 ⟨h, m, 0, 0⟩ := by
  simp [Counted, RateType.div, h10]
  omega

theorem frameIndex_blockStart (h : Nat) {m : Nat} (h10 : m % 10 = 0) :
    frameIndex .fps2997 ⟨h, m, 0, 0⟩ = h * 107892 + m / 10 * 17982 := by
  simp only [frameIndex, RateType.dropFrame, if_true]
  omega

/-- R167: between two starts of ten-minute blocks lie 17,982 frames a block and 107,892 an hour. -/
theorem tick_iterate_blockStart {h m h' m' : Nat} (hh : h < 24) (hm : m < 60) (h10 : m % 10 = 0)
    (hh' : h' < 24) (hm' : m' < 60) (h10' : m' % 10 = 0) {k : Nat}
    (e : (h * 107892 + m / 10 * 17982 + k) % 2589408 = h' * 107892 + m' / 10 * 17982) :
    (tick .fps2997)^[k] ⟨h, m, 0, 0⟩ = ⟨h', m', 0, 0⟩ := by
  rw [tick_iterate_eq_iff (counted_blockStart hh hm h10) (counted_blockStart hh' hm' h10'),
    frameIndex_blockStart h h10, frameIndex_blockStart h' h10', ← framesPerDay_eq_dayLength]
  exact e

/-- Settles O24: the starts of the blocks lie as far apart as the counts say. -/
theorem dropFrameCounts : Obligations.DropFrameCounts := by
  refine ⟨fun h m hh hm h10 => ?_, fun h hh => ?_, (tick_iterate_midnight_iff .fps2997 _).2 dvd_rfl,
    by decide⟩
  · by_cases h50 : m = 50
    · rw [if_pos h50]
      exact tick_iterate_blockStart hh hm h10 (Nat.mod_lt _ (by omega)) (by omega) rfl (by omega)
    · rw [if_neg h50]
      exact tick_iterate_blockStart hh hm h10 hh (by omega) (by omega) (by omega)
  · exact tick_iterate_blockStart hh (by omega) rfl (Nat.mod_lt _ (by omega)) (by omega) rfl (by omega)

end Sys2Proof.Proofs
end

section
/-! PROOFS. The built word: BUILD stores it, its parity bit makes it even (R193), its digit fields read back
(R197), and the drop-frame flag changes nothing but itself and the parity bit (R198). -/

namespace Sys2Proof.Proofs

open Sys2Proof Sys2Proof.Machine Sys2Proof.Laws Sys2Proof.Statements

/-- Settles O25: the two cases of the validity check. -/
theorem buildWritesBuiltWord : Obligations.BuildWritesBuiltWord := by
  intro s
  rw [exec_build, tcValid]
  refine ⟨fun hv => ?_, fun hv => ?_⟩
  · rw [if_pos hv, complete_eq_ended, writeBuiltWord]
  · rw [if_neg (by simp [hv]), raise_eq_endedWith]

/-! ### Counting set bits -/

theorem popcount_setBit_of_clear {w : LtcWord} {k : Nat} (hk : k < 80) (hw : w.getLsbD k = false) (b : Bool) :
    popcount (setBit w k b) = popcount w + b.toNat := by
  have h := popcountBelow_setBit w k b hk 80
  rwa [if_pos hk, if_pos hk, hw, Bool.toNat_false, Nat.add_zero, ← popcount, ← popcount] at h

theorem popcountBelow_add (w : LtcWord) (m n : Nat) :
    popcountBelow w (m + n) =
      popcountBelow w m + ((List.range n).map fun k => (w.getLsbD (m + k)).toNat).sum := by
  induction n with
  | zero => rfl
  | succ n ih =>
    rw [List.sum_range_succ, ← Nat.add_assoc m n 1, popcountBelow, ih, Nat.add_assoc]

/-! ### Parity (R193) -/

/-- Clearing W[27] leaves the word from which it was chosen. -/
theorem buildWord_clear_parity (t : Timecode) (r : RateType) :
    buildWord t r &&& ~~~(BitVec.twoPow 80 27) = wordFields t r := by
  change setBit (buildWord t r) 27 false = wordFields t r
  apply BitVec.eq_of_getLsbD_eq
  intro i _
  rw [getLsbD_setBit _ _ _ _ (by decide), getLsbD_buildWord]
  by_cases h : i = 27
  · rw [if_pos h, h, wordFields_parity_clear]
  · rw [if_neg h, if_neg h]

theorem getLsbD_buildWord_parity (t : Timecode) (r : RateType) :
    (buildWord t r).getLsbD 27 = decide (popcount (wordFields t r) % 2 = 1) := by
  rw [getLsbD_buildWord, if_pos rfl]

theorem popcount_buildWord (t : Timecode) (r : RateType) :
    popcount (buildWord t r) = popcount (wordFields t r) + ((buildWord t r).getLsbD 27).toNat := by
  rw [getLsbD_buildWord_parity]
  exact popcount_setBit_of_clear (by decide) (wordFields_parity_clear t r) _

theorem popcount_buildWord_even (t : Timecode) (r : RateType) : popcount (buildWord t r) % 2 = 0 := by
  rw [popcount_buildWord, getLsbD_buildWord_parity]
  by_cases h : popcount (wordFields t r) % 2 = 1
  · rw [decide_eq_true h, Bool.toNat_true]
    omega
  · rw [decide_eq_false h, Bool.toNat_false]
    omega

/-- The sync word holds 13 set bits (R121). -/
theorem popcount_buildWord_sync (t : Timecode) (r : RateType) :
    popcount (buildWord t r) = popcountBelow (buildWord t r) 64 + 13 := by
  have hsync : (List.range 16).map (fun k => ((buildWord t r).getLsbD (64 + k)).toNat) =
      (List.range 16).map fun k => (Config.syncBits.getD k false).toNat :=
    List.map_congr_left fun k hk => by rw [getLsbD_buildWord_sync t r (List.mem_range.1 hk)]
  rw [popcount, popcountBelow_add _ 64 16, hsync]
  rfl

/-- Settles O26: with the odd 13 bits of the sync word, an even total fixes W[27] from the D others. -/
theorem builtWordHasEvenParity : Obligations.BuiltWordHasEvenParity := by
  intro t r _
  refine ⟨popcount_buildWord_even t r, ?_, ?_⟩
  · rw [buildWord_clear_parity, getLsbD_buildWord_parity]
  · have heven := popcount_buildWord_even t r
    have hsync := popcount_buildWord_sync t r
    have hparity := popcount_buildWord t r
    have hbit := Bool.toNat_le ((buildWord t r).getLsbD 27)
    omega

/-! ### The digit fields (R192, R197) -/

/-- R192: the digit fields of a word: first position, width and value. -/
def digitFields (t : Timecode) : List (Nat × Nat × Nat) :=
  [(0, 4, t.f % 10), (8, 2, t.f / 10), (16, 4, t.s % 10), (24, 3, t.s / 10),
    (32, 4, t.m % 10), (40, 3, t.m / 10), (48, 4, t.h % 10), (56, 2, t.h / 10)]

theorem getLsbD_buildWord_digit {t : Timecode} {p n v : Nat} (hf : (p, n, v) ∈ digitFields t) (r : RateType)
    {i : Nat} (hi : i < n) : (buildWord t r).getLsbD (p + i) = v.testBit i := by
  rw [getLsbD_buildWord, getLsbD_wordFields]
  fin_cases hf <;> interval_cases i <;> rfl

/-- The digits of a valid timecode are not too wide for their fields (R33). -/
theorem digit_lt_of_valid {t : Timecode} {r : RateType} (hv : t.valid r = true) {p n v : Nat}
    (hf : (p, n, v) ∈ digitFields t) : v < 2 ^ n := by
  obtain ⟨hh, hm, hs, hfr⟩ := valid_iff.1 hv
  have hdiv : r.div ≤ 30 := by cases r <;> decide
  fin_cases hf <;> omega

theorem get_buildWord_digit {t : Timecode} {r : RateType} (hv : t.valid r = true) {p n v : Nat}
    (hf : (p, n, v) ∈ digitFields t) : Machine.get (buildWord t r) p n = v := by
  rw [get_eq_mod _ _ _ v fun i hi => getLsbD_buildWord_digit hf r hi,
    Nat.mod_eq_of_lt (digit_lt_of_valid hv hf)]

theorem getLsbD_buildWord_dropFrame (t : Timecode) (r : RateType) :
    (buildWord t r).getLsbD 10 = decide (r = .fps2997) := by
  rw [getLsbD_buildWord, getLsbD_wordFields]
  cases r <;> rfl

/-- Settles O28: each field holds its digit, and a number is its last digit and ten times the rest. -/
theorem buildRoundTrip : Obligations.BuildRoundTrip := by
  intro t r hv
  have hdigit : ∀ d ∈ digitFields t, Machine.get (buildWord t r) d.1 d.2.1 = d.2.2 :=
    fun d hd => get_buildWord_digit hv hd
  simp only [digitFields, List.forall_mem_cons, List.not_mem_nil, IsEmpty.forall_iff, implies_true,
    and_true] at hdigit
  refine ⟨?_, hdigit⟩
  obtain ⟨hfu, hft, hsu, hst, hmu, hmt, hhu, hht⟩ := hdigit
  rw [decodeFields, hfu, hft, hsu, hst, hmu, hmt, hhu, hht, getLsbD_buildWord_dropFrame]
  simp only [Nat.mod_add_div]

/-! ### The drop-frame flag (R198) -/

/-- Before the parity bit is chosen, rate 2 differs from rate 3 in the drop-frame flag alone. -/
theorem wordFields_fps2997 (t : Timecode) : wordFields t .fps2997 = setBit (wordFields t .fps30) 10 true := by
  apply BitVec.eq_of_getLsbD_eq
  intro i _
  rw [getLsbD_setBit _ _ _ _ (by decide)]
  by_cases h : i = 10
  · rw [if_pos h, h, getLsbD_wordFields]
    rfl
  · rw [if_neg h, getLsbD_wordFields, getLsbD_wordFields, if_neg h, if_neg h]

theorem popcount_wordFields_fps2997 (t : Timecode) :
    popcount (wordFields t .fps2997) = popcount (wordFields t .fps30) + 1 := by
  have hclear : (wordFields t .fps30).getLsbD 10 = false := by
    rw [getLsbD_wordFields]
    rfl
  rw [wordFields_fps2997]
  exact popcount_setBit_of_clear (by decide) hclear true

theorem parity_fps2997_ne_fps30 (t : Timecode) :
    (buildWord t .fps2997).getLsbD 27 ≠ (buildWord t .fps30).getLsbD 27 := by
  rw [getLsbD_buildWord_parity, getLsbD_buildWord_parity, popcount_wordFields_fps2997, Ne, decide_eq_decide]
  omega

theorem getLsbD_buildWord_fps2997_of_ne (t : Timecode) {k : Nat} (h10 : k ≠ 10) (h27 : k ≠ 27) :
    (buildWord t .fps2997).getLsbD k = (buildWord t .fps30).getLsbD k := by
  rw [getLsbD_buildWord, getLsbD_buildWord, if_neg h27, if_neg h27, wordFields_fps2997,
    getLsbD_setBit _ _ _ _ (by decide), if_neg h10]

/-- Settles O29: one flag more turns the parity, and no other bit is written differently. -/
theorem dropFrameFlagDifference : Obligations.DropFrameFlagDifference := by
  refine fun t => ⟨getLsbD_buildWord_dropFrame t, fun k _ => ⟨fun hne => ?_, ?_⟩⟩
  · by_contra hk
    obtain ⟨h10, h27⟩ := not_or.1 hk
    exact hne (getLsbD_buildWord_fps2997_of_ne t h10 h27)
  · rintro (rfl | rfl)
    · rw [getLsbD_buildWord_dropFrame, getLsbD_buildWord_dropFrame]
      decide
    · exact parity_fps2997_ne_fps30 t

end Sys2Proof.Proofs
end

section
/-! PROOFS. Rendering: the samples' values, the half-cell lengths (R224), the polarities of a rendered frame
(R225), and the start and the whole run of RENDER (R220). -/

namespace Sys2Proof.Proofs

open Sys2Proof Sys2Proof.Machine Sys2Proof.Laws Sys2Proof.Statements

/-! ### Samples -/

theorem sampleValue_plus_toNat (a : BitVec 15) : (sampleValue .plus a).toNat = a.toNat := by
  simp only [sampleValue, BitVec.toNat_setWidth]
  omega

theorem sampleValue_minus_toNat (a : BitVec 15) :
    (sampleValue .minus a).toNat = (65536 - a.toNat) % 65536 := by
  simp only [sampleValue, BitVec.toNat_neg, BitVec.toNat_setWidth]
  omega

/-- Settles O32: an amplitude of 15 bits is below 2^15, so its sign bit as a sample is clear. -/
theorem sampleIsSignedAmplitude : Obligations.SampleIsSignedAmplitude := by
  intro a
  refine ⟨?_, ?_, sampleValue_plus_toNat a, sampleValue_minus_toNat a⟩
  · rw [BitVec.toInt_eq_toNat_cond, sampleValue_plus_toNat]
    omega
  · rw [BitVec.toInt_eq_toNat_cond, sampleValue_minus_toNat]
    omega

/-! ### Half-cell lengths (R224) -/

/-- The differences of a sequence that never falls telescope. -/
theorem sum_map_range_sub {f : Nat → Nat} (hf : Monotone f) (n : Nat) :
    ((List.range n).map fun i => f (i + 1) - f i).sum = f n - f 0 :=
  Finset.sum_range_tsub hf n

/-- Settles O30: the lengths telescope, and each is floor(S / 160) or one more. -/
theorem halfCellLengthsSumToSpan : Obligations.HalfCellLengthsSumToSpan := by
  intro S
  have mono : Monotone (boundary S) := fun _ _ => boundary_mono S
  refine ⟨boundary_zero S, boundary_last S, ?_, fun hS j _ => ?_⟩
  · rw [sum_map_range_sub mono, boundary_zero, boundary_last, Nat.sub_zero]
  · have hlen := boundary_succ S j
    omega

/-! ### Polarities of a frame (R225) -/

theorem levelBefore_even (w : LtcWord) (p : Polarity) (k : Nat) :
    levelBefore w p (2 * k) = polarityBeforeBit w p k := by
  cases k <;> rfl

/-- The polarity flips on entering each bit cell. -/
theorem halfCellPolarity_even_ne (w : LtcWord) (p : Polarity) (k : Nat) :
    halfCellPolarity w p (2 * k) ≠ levelBefore w p (2 * k) := by
  rw [levelBefore_even, ← flip_polarityBeforeBit]
  exact polarity_flip_ne _

/-- The polarity flips at the midpoint of a bit cell exactly when the bit is 1. -/
theorem halfCellPolarity_odd_ne (w : LtcWord) (p : Polarity) (k : Nat) :
    halfCellPolarity w p (2 * k + 1) ≠ levelBefore w p (2 * k + 1) ↔ w.getLsbD k = true := by
  rw [levelBefore, halfCellPolarity_odd]
  split_ifs with hk
  · simp [hk, polarity_flip_ne]
  · simp [hk]

/-- Each of the first n bits brings one transition, and one more if it is set. -/
theorem transitions_below (w : LtcWord) (p : Polarity) (n : Nat) :
    ((List.range (2 * n)).countP fun j => decide (halfCellPolarity w p j ≠ levelBefore w p j)) =
      n + popcountBelow w n := by
  induction n with
  | zero => rfl
  | succ n ih =>
    rw [(by ring : 2 * (n + 1) = 2 * n + 1 + 1), List.range_succ, List.range_succ, List.countP_append,
      List.countP_append, ih, List.countP_singleton, List.countP_singleton,
      if_pos (decide_eq_true (halfCellPolarity_even_ne w p n)), popcountBelow]
    simp only [halfCellPolarity_odd_ne, decide_eq_true_eq]
    cases w.getLsbD n
    · rw [if_neg Bool.false_ne_true, Bool.toNat_false]
      omega
    · rw [if_pos rfl, Bool.toNat_true]
      omega

/-- After n bits the entry polarity has been flipped at each of their transitions. -/
theorem polarityBeforeBit_eq (w : LtcWord) (p : Polarity) (n : Nat) :
    polarityBeforeBit w p n = Polarity.flip^[n + popcountBelow w n] p := by
  induction n with
  | zero => rfl
  | succ n ih =>
    rw [polarityBeforeBit, halfCellPolarity_odd, ← flip_polarityBeforeBit, ih, popcountBelow]
    cases w.getLsbD n
    · rw [if_neg Bool.false_ne_true, Bool.toNat_false, Nat.add_right_comm,
        Function.iterate_succ_apply', Nat.add_zero]
    · rw [if_pos rfl, Bool.toNat_true, (by ring : n + 1 + (popcountBelow w n + 1) =
        n + popcountBelow w n + 1 + 1), Function.iterate_succ_apply', Function.iterate_succ_apply']

theorem flip_iterate_eq_self_iff (n : Nat) (p : Polarity) : Polarity.flip^[n] p = p ↔ n % 2 = 0 := by
  have hinv : Function.Involutive Polarity.flip := polarity_flip_flip
  rcases Nat.even_or_odd n with h | h
  · simp [hinv.iterate_even h, Nat.even_iff.1 h]
  · simp [hinv.iterate_odd h, Nat.odd_iff.1 h, polarity_flip_ne]

/-- Settles O31: by the frame sample by sample (`renderFrame_eq`) and the count of its transitions. -/
theorem renderedFrameLengthAndPolarity : Obligations.RenderedFrameLengthAndPolarity := by
  intro w S a p hS
  have hpos : 0 < S := by omega
  have hexit : halfCellPolarity w p 159 = Polarity.flip^[80 + popcount w] p := polarityBeforeBit_eq w p 80
  rw [renderFrame_eq w S a p hpos]
  refine ⟨by simp, fun n h => ?_, transitions_below w p 80, rfl, hexit, ?_⟩
  · rw [List.getElem_map, List.getElem_range, frameSample]
    refine ⟨rfl, fun j _ hlo hhi => ?_⟩
    rw [(halfCellOf_eq_iff S n j hpos).2 ⟨hlo, hhi⟩]
  · rw [hexit, flip_iterate_eq_self_iff]
    omega

/-! ### RENDER -/

/-- Where a frame begins, its first sample is at the negation of the entry polarity (R222). -/
theorem beginEmission_eq (i : Instr) {s : State} (hS : 160 ≤ s.span.toNat) :
    beginEmission i s = { s with
      runPol := s.enc.pol.flip
      running := some ⟨i, .emit 0 ⟨sampleValue s.enc.pol.flip s.amp, true⟩⟩ } := by
  have hp : polarityAt s.word s.span.toNat 0 s.enc.pol = s.enc.pol.flip := by
    simpa [boundary_zero, enterHalfCell] using polarityAt_boundary s.word 0 s.enc.pol hS
  simp only [beginEmission, offer, hp]
  rfl

/-- RENDER of a renderable span begins its frame (R220). -/
theorem exec_render_begin {s : State} (start : phaseOf .render s = .start)
    (hS : Config.minSpan ≤ s.span.toNat) : exec .render s = .next (beginEmission .render s) := by
  rw [exec_render_start start, if_neg (Nat.not_lt.2 hS)]

/-- Settles O33: the two cases of the span check. -/
theorem renderStartsOrRefuses : Obligations.RenderStartsOrRefuses := by
  intro s idle
  have start := phaseOf_start idle
  refine ⟨fun short => ?_, fun long => ?_⟩
  · rw [exec_render_start start, Config.minSpan, if_pos short, raise_eq_endedWith]
  · rw [exec_render_begin start long, beginEmission_eq _ long]

/-- After its last sample RENDER commits ENC.POL and completes. -/
theorem render_end_steps {s : State} (free : s.schedule = []) (out : s.rst = false)
    (h : s.running = some ⟨.render, .commit⟩) :
    StepsTo 2 s (ended { s with enc := ⟨s.runPol, s.enc.phase⟩ }) :=
  ⟨_, (step_running free out h).trans (exec_render_commit h),
    .one ((step_running (s := setPhase .render .finish (commitPolarity s)) free out rfl).trans
      (exec_render_finish rfl))⟩

/-- Settles O36: the accepting step begins the frame, `beginEmission_steps` emits it, and two more steps
commit ENC.POL and complete. -/
theorem renderRunEmitsTheRenderedFrame : Obligations.RenderRunEmitsTheRenderedFrame := by
  intro s ready hS
  obtain ⟨-, out, smp, free⟩ := ready
  have hbegin : step (s.withFetchWord 32 0x4) =
      .next (beginEmission .render { s with running := some ⟨.render, .start⟩ }) :=
    (step_withFetchWord s .render out).trans (exec_render_begin (phaseOf_start (.inr rfl)) hS)
  have hemit := beginEmission_steps .render rfl { s with running := some ⟨.render, .start⟩ } hS free out smp
  dsimp only at hemit
  -- The rendering stays a variable, or the kernel would unfold it to compare the end states.
  generalize renderFrame s.word s.span.toNat s.amp s.enc.pol = f at hemit ⊢
  have hrun := (StepsTo.one hbegin).trans (hemit.trans (render_end_steps free out rfl))
  rw [(by omega : s.span.toNat + 3 = 1 + (s.span.toNat + 2))]
  exact hrun.run

end Sys2Proof.Proofs
end

section
/-! PROOFS. Spans: NEXTSPAN (R227), the spans of a segment and their drift-free total (R229, R230), and the
segment's reset (R232). -/

namespace Sys2Proof.Proofs

open Sys2Proof Sys2Proof.Machine Sys2Proof.Laws Sys2Proof.Statements

/-! ### NEXTSPAN -/

/-- `spanOf` is the difference of two roundings over L, as R228 writes it. -/
theorem spanOf_eq_roundDiv (phase sr : Nat) (r : RateType) :
    spanOf phase sr r = roundDiv (phase + sr * r.period) 599400 - roundDiv phase 599400 := by
  rw [spanOf_eq, roundDiv, roundDiv]
  omega

/-- SPAN takes the next span without loss (R40, R228). -/
theorem writeSpan_span_toNat (s : State) : (writeSpan s).span.toNat =
    roundDiv (s.enc.phase.toNat + s.srate.toNat * s.rate.period) 599400 -
      roundDiv s.enc.phase.toNat 599400 := by
  rw [writeSpan_span, BitVec.toNat_ofNat, Nat.mod_eq_of_lt (nextSpan_lt s), nextSpan, spanOf_eq_roundDiv]

/-- PHASE takes the next phase without loss (R42, R228). -/
theorem writeSpan_phase_toNat (s : State) : (writeSpan s).enc.phase.toNat =
    (s.enc.phase.toNat + s.srate.toNat * s.rate.period) % 599400 := by
  have hlt := phaseAfter_lt s.enc.phase.toNat s.srate.toNat s.rate
  rw [writeSpan_enc, BitVec.toNat_ofNat, Nat.mod_eq_of_lt (by omega), phaseAfter_eq]

/-- Settles O37: the two cases of the SRATE check. -/
theorem nextspanWritesSpanAndPhase : Obligations.NextspanWritesSpanAndPhase := by
  intro s
  rw [exec_nextspan]
  refine ⟨fun hne => ?_, fun hzero => ?_⟩
  · rw [if_neg hne]
    exact ⟨_, rfl, rfl, writeSpan_span_toNat s, writeSpan_phase_toNat s⟩
  · rw [if_pos hzero, raise_eq_endedWith]

/-! ### A segment -/

theorem idealSamples_eq (sr : Nat) (r : RateType) (n : Nat) :
    idealSamples sr r n = (299700 + n * sr * r.period) / 599400 :=
  roundDiv_exact n sr r

theorem idealSamples_zero (sr : Nat) (r : RateType) : idealSamples sr r 0 = 0 := by
  simp [idealSamples_eq]

theorem idealSamples_mono (sr : Nat) (r : RateType) : Monotone (idealSamples sr r) := by
  intro m n hmn
  rw [idealSamples_eq, idealSamples_eq]
  gcongr

/-- The phase carries the whole segment's fraction of a sample (R229). -/
theorem segmentPhase_eq (sr : Nat) (r : RateType) (i : Nat) :
    segmentPhase sr r i = i * sr * r.period % 599400 := by
  induction i with
  | zero => simp [segmentPhase]
  | succ i ih =>
    rw [segmentPhase] at ih
    rw [segmentPhase, Function.iterate_succ_apply', ih, phaseAfter_eq, Nat.mod_add_mod,
      Nat.succ_mul, Nat.add_mul]

theorem segmentSpan_eq (sr : Nat) (r : RateType) (i : Nat) :
    segmentSpan sr r i = idealSamples sr r (i + 1) - idealSamples sr r i := by
  rw [segmentSpan, segmentPhase_eq, spanOf_shift, spanOf_eq, idealSamples_eq, idealSamples_eq,
    Nat.succ_mul, Nat.add_mul]

/-- Settles O38: the phase in closed form, and shift invariance. -/
theorem segmentSpansAreTheSources : Obligations.SegmentSpansAreTheSources :=
  fun sr r i => ⟨segmentSpan_eq sr r i, segmentPhase_eq sr r (i + 1)⟩

/-- SR / EXACT(r) over the common denominator L (R34). -/
theorem div_exact (sr : Nat) (r : RateType) : sr * r.exactDen / r.exactNum = sr * r.period / 599400 := by
  cases r <;>
    simp [RateType.exactNum, RateType.exactDen, RateType.period, Config.phaseDen] <;> omega

/-- From any phase the span is floor(SR / EXACT) or one more (R230). -/
theorem spanOf_floor (phase sr : Nat) (r : RateType) :
    spanOf phase sr r = sr * r.exactDen / r.exactNum ∨
      spanOf phase sr r = sr * r.exactDen / r.exactNum + 1 := by
  rw [spanOf_eq, div_exact]
  omega

/-- Settles O39: the spans telescope. -/
theorem segmentTotalIsDriftFree : Obligations.SegmentTotalIsDriftFree := by
  refine fun sr r n => ⟨?_, fun i _ => spanOf_floor _ sr r⟩
  rw [List.map_congr_left fun i _ => segmentSpan_eq sr r i, sum_map_range_sub (idealSamples_mono sr r),
    idealSamples_zero, Nat.sub_zero]

/-! ### SEGRESET -/

/-- Settles O41: one update, and ENC at its initial value reads 0. -/
theorem segresetResetsEncoderState : Obligations.SegresetResetsEncoderState :=
  fun s => ⟨_, exec_segreset s, rfl, (by decide : EncReg.initial.pack = 0x00000000#32)⟩

end Sys2Proof.Proofs
end

section
/-! PROOFS. The sequencer's updates, one by one: the checks and the commits of a frame (R272, R273), GENERATE's
frame boundary (R275), ABORT (R276) and NOP (R270). -/

namespace Sys2Proof.Proofs

open Sys2Proof Sys2Proof.Machine Sys2Proof.Laws Sys2Proof.Statements

/-- Settles O42: NOP's one update is completion. -/
theorem nopOnlyCompletes : Obligations.NopOnlyCompletes :=
  exec_nop

/-! ### The start of a frame -/

/-- The first check that fails names the error (R272, R305). -/
theorem frameFault_of_failed {s : State}
    (failed : s.srate = 0#32 ∨ s.tc.value.valid s.rate = false ∨ nextSpan s < 160) :
    frameFault s = some (if s.srate = 0#32 then .srateZero
      else if s.tc.value.valid s.rate = false then .tcRange else .spanShort) := by
  rw [frameFault, tcValid]
  by_cases hrate : s.srate = 0#32
  · rw [if_pos hrate, if_pos hrate]
  by_cases hvalid : s.tc.value.valid s.rate = false
  · rw [if_neg hrate, if_pos hvalid, if_neg hrate, if_pos hvalid]
  · have hspan : nextSpan s < Config.minSpan := (failed.resolve_left hrate).resolve_left hvalid
    rw [if_neg hrate, if_neg hvalid, if_pos hspan, if_neg hrate, if_neg hvalid]

/-- Settles O43: `frameFault` is the first failed check, and a fault at the start ends the command. -/
theorem frameChecksInOrder : Obligations.FrameChecksInOrder := by
  intro s cause failed
  have hfault : frameFault s = some cause := frameFault_of_failed failed
  refine ⟨fun start => ?_, fun start hframes => ?_⟩
  · rw [exec_frame_fault (phaseOf_start start) hfault, raise_eq_endedWith]
  · rw [exec_generate_fault (phaseOf_start start) hframes hfault, raise_eq_endedWith]
    rfl

/-- SPAN takes `nextSpan` without loss (R40). -/
theorem writeSpan_span_eq_nextSpan (s : State) : (writeSpan s).span.toNat = nextSpan s := by
  rw [writeSpan_span, BitVec.toNat_ofNat, Nat.mod_eq_of_lt (nextSpan_lt s)]

/-- The start-of-frame commit and the offer of the first sample (R272, R273). -/
theorem beginFrame_eq (i : Instr) {s : State} (hS : 160 ≤ nextSpan s) :
    beginFrame i s = { writeBuiltWord (writeSpan s) with
      runPol := s.enc.pol.flip
      running := some ⟨i, .emit 0 ⟨sampleValue s.enc.pol.flip s.amp, true⟩⟩ } := by
  have hspan : 160 ≤ (writeBuiltWord (writeSpan s)).span.toNat := by
    rwa [writeBuiltWord_span, writeSpan_span_eq_nextSpan]
  exact beginEmission_eq i hspan

/-- Settles O44: FRAME and GENERATE begin the frame with the same commit. -/
theorem frameStartCommit : Obligations.FrameStartCommit := by
  intro s hrate hvalid hS x begun
  have hchecks : frameFault s = none := frameFault_eq_none.2 ⟨hrate, hvalid, hS⟩
  have hbegun (i : Instr) (e : exec i s = .next (beginFrame i s)) : ∃ t, begun i t := by
    rw [beginFrame_eq i hS] at e
    exact ⟨_, e, rfl, writeSpan_span_toNat s, writeSpan_phase_toNat s⟩
  exact ⟨fun start => hbegun .frame (exec_frame_start (phaseOf_start start) hchecks),
    fun start hframes => hbegun .generate (exec_generate_start (phaseOf_start start) hframes hchecks)⟩

/-! ### The end of a frame -/

/-- Counting a frame takes one from FRAMES (R275). -/
theorem frames_sub_one_toNat {v : Word} (hv : v ≠ 0#32) : (v - 1#32).toNat + 1 = v.toNat := by
  bv_omega

/-- Settles O45: the two commands' commits, and FRAME's completion. -/
theorem frameEndCommit : Obligations.FrameEndCommit :=
  fun _ => ⟨exec_frame_commit, exec_frame_finish,
    fun h hframes => ⟨_, exec_generate_commit h, rfl, frames_sub_one_toNat hframes⟩⟩

/-! ### GENERATE's frame boundary -/

theorem frameBoundary_done {s : State} (hf : s.frames = 0#32) :
    frameBoundary s = complete (clearAbort s) :=
  if_pos hf

theorem frameBoundary_aborted {s : State} (hf : s.frames ≠ 0#32) (ha : s.abortLatch = true) :
    frameBoundary s =
      complete (clearAbort { s with status := { s.status with aborted := true } }) :=
  (if_neg hf).trans (if_pos ha)

theorem frameBoundary_next {s : State} (hf : s.frames ≠ 0#32) (ha : s.abortLatch = false) :
    frameBoundary s = setPhase .generate .start s :=
  (if_neg hf).trans (if_neg (by simp [ha]))

/-- Settles O46: the three cases of the boundary, and GENERATE with no frame to emit. -/
theorem generateFrameBoundary : Obligations.GenerateFrameBoundary := by
  intro s
  refine ⟨fun finish => ?_, fun start hf => exec_generate_none (phaseOf_start start) hf⟩
  rw [exec_generate_finish finish]
  exact ⟨fun hf => congrArg _ (frameBoundary_done hf),
    fun hf ha => congrArg _ (frameBoundary_aborted hf ha),
    fun hf ha => congrArg _ (frameBoundary_next hf ha)⟩

/-! ### ABORT -/

theorem exec_abort_alone {s : State} (h : s.running = none ∨ s.running = some ⟨.abort, .start⟩) :
    exec .abort s = .next (complete s) := by
  rcases h with h | h <;> simp [exec, execAbort, h]

theorem exec_abort_beside {s : State} {i : Instr} {p : Phase} (h : s.running = some ⟨i, p⟩)
    (hi : i ≠ .abort) : exec .abort s = .next (requestAbort s) := by
  simp [exec, execAbort, h, hi]

/-- Settles O47: alone ABORT completes; beside another command it is the request of R276. -/
theorem abortOnlySetsLatchOrCompletes : Obligations.AbortOnlySetsLatchOrCompletes := by
  refine fun s => ⟨exec_abort_alone, fun i p h hi => ?_⟩
  rw [exec_abort_beside h hi, requestAbort_eq, h]
  simp

end Sys2Proof.Proofs
end

section
/-! PROOFS. What leaves the block as it is: its own turn while idle, and every turn but the platform's while
RST is high (R280, R315, R340). -/

namespace Sys2Proof.Proofs

open Sys2Proof Sys2Proof.Machine Sys2Proof.Laws Sys2Proof.Statements

/-- The block's own turn changes nothing in reset, and nothing when no command runs. -/
theorem coreStep_unchanged {s : State} (h : s.rst = true ∨ s.running = none) :
    coreStep s = .next s := by
  unfold coreStep
  rcases h with h | h
  · rw [if_pos h]
  · rw [h]
    split <;> rfl

/-- A turn given to the block is its own turn, with the rest of the schedule to follow. -/
theorem step_core {s : State} {rest : List Turn} (hs : s.schedule = .core :: rest) :
    step s = coreStep { s with schedule := rest } := by
  simp [step, hs, popTurn]

/-- A write while RST is high is dropped (R340, R341). -/
theorem hostStep_write_in_reset {s : State} (off : Byte) (width : Nat) (v : Word) (hr : s.rst = true) :
    hostStep (.write off width v) s = .next s := by
  simp only [hostStep, hostAccess, hr, if_true]

/-- A read while RST is high returns a value and changes nothing (R54; log entry 7). -/
theorem hostStep_read_in_reset {s : State} (off : Byte) (width : Nat) (hr : s.rst = true) :
    hostStep (.read off width) s = .next { s with reads := (busRead off width s).1 :: s.reads } :=
  congrArg Host.Outcome.next (hostRead_in_reset off width hr)

/-- A bad read returns 0 (R83). -/
theorem busRead_bad {off : Byte} {width : Nat} (s : State) (ha : admitted off width = none) :
    (busRead off width s).1 = 0#32 := by
  rw [busRead, ha]

/-- Settles O56: by the block's own turn without a change, and reads and writes while RST is high. -/
theorem idleBlockHoldsItsState : Obligations.IdleBlockHoldsItsState := by
  intro s rest
  refine ⟨fun idle => ⟨fun hs => ?_, fun hs => ?_⟩, fun hr => ⟨?_, fun off width hs => ?_⟩⟩
  · rw [step, hs]
    exact coreStep_unchanged (.inr idle)
  · rw [step_core hs]
    exact coreStep_unchanged (.inr idle)
  · rintro (hs | ⟨off, width, v, hs⟩)
    · rw [step_core hs]
      exact coreStep_unchanged (.inl hr)
    · rw [step_host hs]
      exact hostStep_write_in_reset off width v hr
  · have hread := hostStep_read_in_reset (s := { s with schedule := rest }) off width hr
    rw [step_host hs, hread]
    exact ⟨⟨_, rfl⟩, fun bad => by rw [busRead_bad _ (admitted_bad bad)]⟩

end Sys2Proof.Proofs
end

section
/-! PROOFS. The run of FRAME (R271, R272), and that it ends where NEXTSPAN, BUILD, RENDER and ADVANCE issued in
turn end. -/

namespace Sys2Proof.Proofs

open Sys2Proof Sys2Proof.Machine Sys2Proof.Laws Sys2Proof.Statements

/-! ### The emission of one frame -/

/-- A built word has an even number of set bits, so its frame ends at the polarity it began with (R225). -/
theorem renderFrame_buildWord_exit (t : Timecode) (r : RateType) {S : Nat} (a : BitVec 15) (p : Polarity)
    (hS : 160 ≤ S) : (renderFrame (buildWord t r) S a p).2 = p := by
  obtain ⟨-, -, -, -, -, hexit⟩ := renderedFrameLengthAndPolarity (buildWord t r) S a p hS
  exact hexit.2 (popcount_buildWord_even t r)

/-- `s` with the frame that its registers describe committed and emitted, before the end-of-frame commit:
SPAN, PHASE and WORD are written, and the sink has the rendering (R272). -/
def emitFrame (s : State) : State :=
  { writeBuiltWord (writeSpan s) with
    runPol := s.enc.pol
    sent := (renderFrame (buildWord s.tc.value s.rate) (nextSpan s) s.amp s.enc.pol).1.reverse ++ s.sent }

/-- A frame that begins under FRAME or GENERATE is emitted whole, one sample a step. -/
theorem beginFrame_steps {i : Instr} (hi : emits i = true) {s : State} (hS : 160 ≤ nextSpan s)
    (free : s.schedule = []) (out : s.rst = false) (ready : s.smpReady = true) :
    StepsTo (nextSpan s) (beginFrame i s) (setPhase i .commit (emitFrame s)) := by
  have hspan : (writeBuiltWord (writeSpan s)).span.toNat = nextSpan s := writeSpan_span_eq_nextSpan s
  have hemit := beginEmission_steps i hi (writeBuiltWord (writeSpan s)) (hS.trans_eq hspan.symm) free out
    ready
  have hword : (writeBuiltWord (writeSpan s)).word = buildWord s.tc.value s.rate := rfl
  have henc : (writeBuiltWord (writeSpan s)).enc.pol = s.enc.pol := rfl
  have hamp : (writeBuiltWord (writeSpan s)).amp = s.amp := rfl
  rw [hspan, hword, henc, hamp, renderFrame_buildWord_exit _ _ _ _ hS] at hemit
  exact hemit

/-! ### FRAME -/

/-- After its last sample FRAME commits ENC.POL and TC, and completes. -/
theorem frame_end_steps {s : State} (free : s.schedule = []) (out : s.rst = false) :
    StepsTo 2 (setPhase .frame .commit s) (ended (endFrame s)) :=
  ⟨_, (step_running (s := setPhase .frame .commit s) free out rfl).trans (exec_frame_commit rfl),
    .one ((step_running (s := setPhase .frame .finish (endFrame s)) free out rfl).trans
      (exec_frame_finish rfl))⟩

/-- From an idle state whose checks pass, a FRAME written to CMD runs to the end of its frame. -/
theorem frame_run {s : State} (idle : IdleReady s) (checks : frameFault s = none) :
    core.run (nextSpan s + 3) (s.withFetchWord 32 0x5) = .next (ended (endFrame (emitFrame s))) := by
  obtain ⟨-, out, ready, free⟩ := idle
  obtain ⟨-, -, hS⟩ := frameFault_eq_none.1 checks
  have hbegin : step (s.withFetchWord 32 0x5) =
      .next (beginFrame .frame { s with running := some ⟨.frame, .start⟩ }) :=
    (step_withFetchWord s .frame out).trans (exec_frame_start (phaseOf_start (.inr rfl)) checks)
  have hemit := beginFrame_steps (i := .frame) rfl (s := { s with running := some ⟨.frame, .start⟩ }) hS
    free out ready
  have hrun := (StepsTo.one hbegin).trans (hemit.trans (frame_end_steps free out))
  rw [(by omega : nextSpan s + 3 = 1 + (nextSpan s + 2))]
  exact hrun.run

/-- Settles O48: the run of FRAME, with its end state written out. -/
theorem frameRunProducesOneFrame : Obligations.FrameRunProducesOneFrame :=
  fun _ idle hrate hvalid hS => frame_run idle (frameFault_eq_none.2 ⟨hrate, hvalid, hS⟩)

/-! ### The four commands in turn -/

/-- A command whose first update ends it runs in one step. -/
theorem run_one_update {s t : State} (i : Instr) (out : s.rst = false)
    (h : exec i { s with running := some ⟨i, .start⟩ } = .next t) :
    core.run 1 (s.withFetchWord 32 (encode i).toNat) = .next t :=
  (StepsTo.one ((step_withFetchWord s i out).trans h)).run

/-- `s` after NEXTSPAN, BUILD and RENDER in turn, `f` being the rendering of the built word. -/
def rendered (f : List PortSample × Polarity) (s : State) : State :=
  ended { writeBuiltWord (writeSpan s) with
    enc := ⟨f.2, (writeSpan s).enc.phase⟩
    runPol := f.2
    sent := f.1.reverse ++ s.sent }

/-- RENDER takes the span that NEXTSPAN left and the word that BUILD left. The rendering stays a variable, or
the kernel would unfold it to compare end states. -/
theorem render_run_after_build {s : State} {f : List PortSample × Polarity} (idle : IdleReady s)
    (hS : 160 ≤ nextSpan s)
    (hf : f = renderFrame (buildWord s.tc.value s.rate) (nextSpan s) s.amp s.enc.pol) :
    core.run (nextSpan s + 3) ((ended (writeBuiltWord (writeSpan s))).withFetchWord 32 0x4) =
      .next (rendered f s) := by
  have hspan : (ended (writeBuiltWord (writeSpan s))).span.toNat = nextSpan s := writeSpan_span_eq_nextSpan s
  have hword : (ended (writeBuiltWord (writeSpan s))).word = buildWord s.tc.value s.rate := rfl
  have hpol : (ended (writeBuiltWord (writeSpan s))).enc.pol = s.enc.pol := rfl
  have hamp : (ended (writeBuiltWord (writeSpan s))).amp = s.amp := rfl
  have hrun := renderRunEmitsTheRenderedFrame (ended (writeBuiltWord (writeSpan s)))
    ⟨rfl, idle.notReset, idle.ready, idle.free⟩ (hS.trans_eq hspan.symm)
  rw [hspan, hword, hpol, hamp, ← hf] at hrun
  exact hrun

/-- ADVANCE after the three ends as FRAME does: the frame leaves ENC.POL as it was. -/
theorem advanceTc_rendered {s : State} {f : List PortSample × Polarity} (hS : 160 ≤ nextSpan s)
    (hf : f = renderFrame (buildWord s.tc.value s.rate) (nextSpan s) s.amp s.enc.pol) :
    ended (advanceTc (rendered f s)) = ended (endFrame (emitFrame s)) := by
  have hexit : f.2 = s.enc.pol := by rw [hf, renderFrame_buildWord_exit _ _ _ _ hS]
  rw [rendered, hexit, emitFrame, ← hf]
  rfl

/-- Settles O49: each of the four commands ends in the state the next one starts from. -/
theorem frameEqualsItsFourCommands : Obligations.FrameEqualsItsFourCommands := by
  intro s idle hrate hvalid hS
  have out := idle.notReset
  obtain ⟨f, hf⟩ : ∃ f, f = renderFrame (buildWord s.tc.value s.rate) (nextSpan s) s.amp s.enc.pol := ⟨_, rfl⟩
  refine ⟨ended (writeSpan s), ended (writeBuiltWord (writeSpan s)), rendered f s,
    ended (endFrame (emitFrame s)),
    run_one_update .nextspan out ((exec_nextspan _).trans (congrArg _ (if_neg hrate))),
    run_one_update .build out ((exec_build _).trans (congrArg _ (if_pos hvalid))),
    render_run_after_build idle hS hf, ?_, frame_run idle (frameFault_eq_none.2 ⟨hrate, hvalid, hS⟩)⟩
  rw [← advanceTc_rendered hS hf]
  exact run_one_update .advance out ((exec_advance _).trans (congrArg _ (if_pos hvalid)))

end Sys2Proof.Proofs
end

section
/-! PROOFS. The run of GENERATE (R274, R275): it emits frame after frame, and its samples are the source's
sequence (R277), drift-free in number (R230). -/

namespace Sys2Proof.Proofs

open Sys2Proof Sys2Proof.Machine Sys2Proof.Laws Sys2Proof.Statements

/-! ### The source's sequence -/

theorem exactNum_pos (r : RateType) : 0 < r.exactNum := by cases r <;> decide

/-- At a sample rate of at least 160 × EXACT(r) every frame is renderable (R349). -/
theorem minSpan_le_spanOf {sr : Nat} {r : RateType} (hrate : 160 * r.exactNum ≤ sr * r.exactDen)
    (phase : Nat) : 160 ≤ spanOf phase sr r := by
  have hfloor : 160 ≤ sr * r.exactDen / r.exactNum := (Nat.le_div_iff_mul_le (exactNum_pos r)).2 hrate
  have hspan := spanOf_floor phase sr r
  omega

/-- Frame `i` of the sequence that starts with the timecode `t`, the phase `phase` and the polarity `p`. -/
def sequenceFrame (sr : Nat) (a : BitVec 15) (r : RateType) (t : Timecode) (phase : Nat) (p : Polarity)
    (i : Nat) : List PortSample :=
  (renderFrame (buildWord ((tick r)^[i] t) r) (spanOf ((fun x => phaseAfter x sr r)^[i] phase) sr r) a p).1

theorem sequenceFrame_zero (sr : Nat) (a : BitVec 15) (r : RateType) (t : Timecode) (phase : Nat)
    (p : Polarity) :
    sequenceFrame sr a r t phase p 0 = (renderFrame (buildWord t r) (spanOf phase sr r) a p).1 := by
  rw [sequenceFrame, Function.iterate_zero_apply, Function.iterate_zero_apply]

theorem sequenceFrame_succ (sr : Nat) (a : BitVec 15) (r : RateType) (t : Timecode) (phase : Nat)
    (p : Polarity) (i : Nat) :
    sequenceFrame sr a r t phase p (i + 1) =
      sequenceFrame sr a r (advance t r) (phaseAfter phase sr r) p i := by
  rw [sequenceFrame, Function.iterate_succ_apply, Function.iterate_succ_apply, tick, sequenceFrame]

/-- Every frame of the sequence begins at the first one's polarity, so the sequence is its frames one by
one. -/
theorem sequenceSamples_eq_flatMap {sr : Nat} {r : RateType} (hspan : ∀ phase, 160 ≤ spanOf phase sr r)
    (a : BitVec 15) (t : Timecode) (phase : Nat) (p : Polarity) (n : Nat) :
    sequenceSamples sr a r n t phase p = (List.range n).flatMap (sequenceFrame sr a r t phase p) := by
  induction n generalizing t phase with
  | zero => rfl
  | succ n ih =>
    rw [sequenceSamples, renderFrame_buildWord_exit _ _ _ _ (hspan phase), ih, List.range_succ_eq_map,
      List.flatMap_cons, List.flatMap_map, sequenceFrame_zero]
    simp only [Nat.succ_eq_add_one, sequenceFrame_succ]

theorem sequenceSamples_succ {sr : Nat} {r : RateType} (hspan : ∀ phase, 160 ≤ spanOf phase sr r)
    (a : BitVec 15) (t : Timecode) (phase : Nat) (p : Polarity) (n : Nat) :
    sequenceSamples sr a r (n + 1) t phase p =
      sequenceSamples sr a r n t phase p ++ sequenceFrame sr a r t phase p n := by
  rw [sequenceSamples_eq_flatMap hspan, sequenceSamples_eq_flatMap hspan, List.range_succ,
    List.flatMap_append, List.flatMap_singleton]

/-- From PHASE = 0 the sequence has as many samples as its frames' spans, which sum without drift (R230). -/
theorem length_sequenceSamples {sr : Nat} {r : RateType} (hspan : ∀ phase, 160 ≤ spanOf phase sr r)
    (a : BitVec 15) (t : Timecode) (p : Polarity) (n : Nat) :
    (sequenceSamples sr a r n t 0 p).length = idealSamples sr r n := by
  have hframe (i : Nat) : (sequenceFrame sr a r t 0 p i).length = segmentSpan sr r i := by
    obtain ⟨hlen, -⟩ := renderedFrameLengthAndPolarity (buildWord ((tick r)^[i] t) r) _ a p
      (hspan ((fun x => phaseAfter x sr r)^[i] 0))
    exact hlen
  obtain ⟨htotal, -⟩ := segmentTotalIsDriftFree sr r n
  rw [sequenceSamples_eq_flatMap hspan, List.length_flatMap, funext hframe, htotal]

/-! ### One frame of GENERATE -/

/-- `s` with its next frame emitted, committed and counted (R272, R275). -/
def generateFrame (s : State) : State := endGeneratedFrame (emitFrame s)

/-- What one frame of GENERATE changes, all computed from the state before it. -/
theorem generateFrame_eq (s : State) :
    generateFrame s = { s with
      frames := s.frames - 1#32
      tc := TcReg.ofTimecode (advance s.tc.value s.rate)
      enc := ⟨s.enc.pol, BitVec.ofNat 20 (phaseAfter s.enc.phase.toNat s.srate.toNat s.rate)⟩
      span := BitVec.ofNat 32 (spanOf s.enc.phase.toNat s.srate.toNat s.rate)
      word := buildWord s.tc.value s.rate
      runPol := s.enc.pol
      sent := (renderFrame (buildWord s.tc.value s.rate) (spanOf s.enc.phase.toNat s.srate.toNat s.rate)
        s.amp s.enc.pol).1.reverse ++ s.sent } := by
  simp only [generateFrame, endGeneratedFrame, endFrame, emitFrame, advanceTc, commitPolarity,
    writeBuiltWord, writeSpan, nextSpan]

/-- GENERATE is about to begin a frame, with no abort asked for, in a state in which every frame passes its
checks, with a sink that accepts every sample and nothing else scheduled. -/
structure Generating (s : State) : Prop where
  running : s.running = some ⟨.generate, .start⟩
  out : s.rst = false
  ready : s.smpReady = true
  free : s.schedule = []
  latch : s.abortLatch = false
  valid : s.tc.value.valid s.rate = true
  rate : 160 * s.rate.exactNum ≤ s.srate.toNat * s.rate.exactDen

theorem Generating.checks {s : State} (h : Generating s) : frameFault s = none := by
  refine frameFault_eq_none.2 ⟨fun hzero => ?_, h.valid, minSpan_le_spanOf h.rate _⟩
  have hrate := h.rate
  have hpos := exactNum_pos s.rate
  rw [hzero, BitVec.toNat_ofNat, Nat.zero_mod, Nat.zero_mul] at hrate
  omega

/-- The next frame begins as this one did, with the next timecode (R163). -/
theorem generating_generateFrame {s : State} (h : Generating s) : Generating (generateFrame s) := by
  have hadv := valid_advance h.valid
  rw [generateFrame_eq]
  exact ⟨h.running, h.out, h.ready, h.free, h.latch, by rwa [value_ofTimecode hadv], h.rate⟩

/-- After its last sample GENERATE commits and counts the frame, and looks at the boundary. -/
theorem generate_end_steps {s : State} (free : s.schedule = []) (out : s.rst = false) :
    StepsTo 2 (setPhase .generate .commit s)
      (frameBoundary (setPhase .generate .finish (endGeneratedFrame s))) :=
  ⟨_, (step_running (s := setPhase .generate .commit s) free out rfl).trans (exec_generate_commit rfl),
    .one ((step_running (s := setPhase .generate .finish (endGeneratedFrame s)) free out rfl).trans
      (exec_generate_finish rfl))⟩

/-- One frame: the start-of-frame commit, a step for each sample, the end-of-frame commit, and the boundary
check. -/
theorem generate_frame_steps {s : State} (h : Generating s) (hframes : s.frames ≠ 0#32) :
    StepsTo (1 + (nextSpan s + 2)) s (frameBoundary (setPhase .generate .finish (generateFrame s))) := by
  obtain ⟨-, -, hS⟩ := frameFault_eq_none.1 h.checks
  have hbegin : step s = .next (beginFrame .generate s) :=
    (step_running h.free h.out h.running).trans
      (exec_generate_start (phaseOf_start (.inr h.running)) hframes h.checks)
  have hemit := beginFrame_steps (i := .generate) rfl hS h.free h.out h.ready
  exact (StepsTo.one hbegin).trans (hemit.trans (generate_end_steps h.free h.out))

/-! ### All frames -/

theorem clearAbort_of_clear {s : State} (h : s.abortLatch = false) : clearAbort s = s := by
  rw [clearAbort, ← h]

theorem setPhase_of_running {s : State} {i : Instr} {p : Phase} (h : s.running = some ⟨i, p⟩) :
    setPhase i p s = s := by
  rw [setPhase, ← h]

/-- At the boundary after the last frame GENERATE completes; else it begins the next one, as no abort has
been asked for. -/
theorem frameBoundary_finish {t : State} (hrun : t.running = some ⟨.generate, .start⟩)
    (hlatch : t.abortLatch = false) :
    frameBoundary (setPhase .generate .finish t) = if t.frames = 0#32 then ended t else t := by
  by_cases hlast : t.frames = 0#32
  · rw [if_pos hlast, frameBoundary_done (s := setPhase .generate .finish t) hlast,
      clearAbort_of_clear (s := setPhase .generate .finish t) hlatch]
    rfl
  · rw [if_neg hlast, frameBoundary_next (s := setPhase .generate .finish t) hlast hlatch]
    exact setPhase_of_running hrun

/-- GENERATE emits FRAMES frames and completes. -/
theorem generate_steps (n : Nat) {s : State} (h : Generating s) (hn : s.frames.toNat = n) :
    ∃ k, StepsTo (1 + k) s (ended (generateFrame^[n] s)) := by
  induction n generalizing s with
  | zero =>
    have hdone := exec_generate_none (phaseOf_start (.inr h.running)) (BitVec.eq_of_toNat_eq hn)
    rw [clearAbort_of_clear h.latch] at hdone
    exact ⟨0, .one ((step_running h.free h.out h.running).trans hdone)⟩
  | succ n ih =>
    have hframes : s.frames ≠ 0#32 := fun hzero => by simp [hzero] at hn
    have hcount : (generateFrame s).frames.toNat = n := by
      have hsub := frames_sub_one_toNat hframes
      rw [generateFrame_eq]
      exact Nat.add_right_cancel (hsub.trans hn)
    have hnext := generating_generateFrame h
    have hsteps := generate_frame_steps h hframes
    rw [frameBoundary_finish hnext.running hnext.latch] at hsteps
    rw [Function.iterate_succ_apply]
    by_cases hlast : (generateFrame s).frames = 0#32
    · obtain rfl : n = 0 := by rw [← hcount, hlast]; rfl
      rw [if_pos hlast] at hsteps
      exact ⟨_, hsteps⟩
    · rw [if_neg hlast] at hsteps
      obtain ⟨k, hk⟩ := ih hnext hcount
      exact ⟨nextSpan s + 2 + (1 + k), by
        rw [← Nat.add_assoc]
        exact hsteps.trans hk⟩

/-! ### The state after n frames -/

/-- The phase before frame `i` of a run of GENERATE from `s` (R228). -/
def phaseAt (s : State) (i : Nat) : Nat :=
  (fun a => phaseAfter a s.srate.toNat s.rate)^[i] s.enc.phase.toNat

/-- The timecode of frame `i` of a run of GENERATE from `s` (R161). -/
def timecodeAt (s : State) (i : Nat) : Timecode := (tick s.rate)^[i] s.tc.value

/-- `s` after `n` frames of GENERATE, in closed form. -/
def afterFrames (s : State) (n : Nat) : State :=
  { s with
    frames := s.frames - BitVec.ofNat 32 n
    tc := TcReg.ofTimecode (timecodeAt s n)
    enc := ⟨s.enc.pol, BitVec.ofNat 20 (phaseAt s n)⟩
    span := if n = 0 then s.span
      else BitVec.ofNat 32 (spanOf (phaseAt s (n - 1)) s.srate.toNat s.rate)
    word := if n = 0 then s.word else buildWord (timecodeAt s (n - 1)) s.rate
    sent := (sequenceSamples s.srate.toNat s.amp s.rate n s.tc.value s.enc.phase.toNat
      s.enc.pol).reverse ++ s.sent }

theorem phaseAt_succ (s : State) (n : Nat) :
    phaseAt s (n + 1) = phaseAfter (phaseAt s n) s.srate.toNat s.rate :=
  Function.iterate_succ_apply' _ _ _

theorem timecodeAt_succ (s : State) (n : Nat) :
    timecodeAt s (n + 1) = advance (timecodeAt s n) s.rate :=
  Function.iterate_succ_apply' _ _ _

/-- PHASE holds each phase without loss (R42). -/
theorem afterFrames_phase (s : State) (n : Nat) : (afterFrames s n).enc.phase.toNat = phaseAt s n := by
  have hlt : phaseAt s n < 2 ^ 20 := by
    cases n with
    | zero => exact s.enc.phase.isLt
    | succ n =>
      rw [phaseAt_succ]
      exact (phaseAfter_lt _ _ _).trans (by decide)
  rw [afterFrames, BitVec.toNat_ofNat, Nat.mod_eq_of_lt hlt]

theorem valid_timecodeAt {s : State} (hv : s.tc.value.valid s.rate = true) (n : Nat) :
    (timecodeAt s n).valid s.rate = true := by
  induction n with
  | zero => exact hv
  | succ n ih => rw [timecodeAt_succ]; exact valid_advance ih

/-- TC holds each timecode without loss (R163). -/
theorem afterFrames_timecode {s : State} (hv : s.tc.value.valid s.rate = true) (n : Nat) :
    (afterFrames s n).tc.value = timecodeAt s n :=
  value_ofTimecode (valid_timecodeAt hv n)

theorem afterFrames_zero (s : State) : afterFrames s 0 = s := by
  have htc : TcReg.ofTimecode s.tc.value = s.tc := by simp [TcReg.ofTimecode, TcReg.value]
  have hphase : BitVec.ofNat 20 s.enc.phase.toNat = s.enc.phase := by
    rw [BitVec.ofNat_toNat, BitVec.setWidth_eq]
  have hframes : s.frames - BitVec.ofNat 32 0 = s.frames := BitVec.sub_zero _
  rw [afterFrames, hframes]
  simp only [timecodeAt, phaseAt, Function.iterate_zero_apply, htc, hphase]
  rfl

/-- One frame on from the state after `n` frames is the state after `n + 1`. -/
theorem generateFrame_afterFrames {s : State} (hv : s.tc.value.valid s.rate = true)
    (hspan : ∀ phase, 160 ≤ spanOf phase s.srate.toNat s.rate) (pol : s.runPol = s.enc.pol) (n : Nat) :
    generateFrame (afterFrames s n) = afterFrames s (n + 1) := by
  have hframes : s.frames - BitVec.ofNat 32 n - 1#32 = s.frames - BitVec.ofNat 32 (n + 1) := by
    rw [BitVec.ofNat_add, sub_sub]
  have hsent : (renderFrame (buildWord (timecodeAt s n) s.rate) (spanOf (phaseAt s n) s.srate.toNat s.rate)
      s.amp s.enc.pol).1 =
        sequenceFrame s.srate.toNat s.amp s.rate s.tc.value s.enc.phase.toNat s.enc.pol n := by
    rw [timecodeAt, phaseAt, sequenceFrame]
  have hrate : (afterFrames s n).rate = s.rate := rfl
  have hsrate : (afterFrames s n).srate = s.srate := rfl
  have hamp : (afterFrames s n).amp = s.amp := rfl
  have hpol : (afterFrames s n).enc.pol = s.enc.pol := rfl
  rw [generateFrame_eq, afterFrames_timecode hv, afterFrames_phase, hrate, hsrate, hamp, hpol, hsent,
    ← timecodeAt_succ, ← phaseAt_succ]
  simp only [afterFrames, hframes, Nat.add_sub_cancel, sequenceSamples_succ hspan, List.reverse_append,
    List.append_assoc, pol, Nat.succ_ne_zero, if_false]

theorem iterate_generateFrame {s : State} (hv : s.tc.value.valid s.rate = true)
    (hspan : ∀ phase, 160 ≤ spanOf phase s.srate.toNat s.rate) (pol : s.runPol = s.enc.pol) (n : Nat) :
    generateFrame^[n] s = afterFrames s n := by
  induction n with
  | zero => exact (afterFrames_zero s).symm
  | succ n ih => rw [Function.iterate_succ_apply', ih, generateFrame_afterFrames hv hspan pol]

/-! ### The run of GENERATE -/

/-- A GENERATE written to CMD takes the first step of GENERATE at its start. -/
theorem generate_run {s : State} (h : Generating { s with running := some ⟨.generate, .start⟩ }) :
    ∃ k, core.run k (s.withFetchWord 32 0x6) =
      .next (ended (generateFrame^[s.frames.toNat] { s with running := some ⟨.generate, .start⟩ })) := by
  obtain ⟨k, hk⟩ := generate_steps s.frames.toNat h rfl
  rw [Nat.add_comm] at hk
  obtain ⟨u, hu, hrest⟩ := hk
  have hfirst : step (s.withFetchWord 32 0x6) = .next u :=
    (step_withFetchWord s .generate h.out).trans ((step_running h.free h.out h.running).symm.trans hu)
  exact ⟨1 + k, ((StepsTo.one hfirst).trans hrest).run⟩

/-- Settles O50: GENERATE emits its frames one by one, and the state after them in closed form holds the
source's sequence. -/
theorem generateRunIsTheSourcesSequence : Obligations.GenerateRunIsTheSourcesSequence := by
  intro s idle inv hv hrate n phases timecodes samples
  have hspan := minSpan_le_spanOf hrate
  obtain ⟨latch, pol⟩ := latch_pol_of_idle inv idle.idle
  refine ⟨?_, fun hphase => ?_⟩
  · obtain ⟨k, hk⟩ := generate_run (s := s) ⟨rfl, idle.notReset, idle.ready, idle.free, latch, hv, hrate⟩
    rw [iterate_generateFrame (s := { s with running := some ⟨.generate, .start⟩ }) hv hspan pol,
      afterFrames] at hk
    have hframes : s.frames - BitVec.ofNat 32 s.frames.toNat = 0#32 := by
      rw [BitVec.ofNat_toNat, BitVec.setWidth_eq, BitVec.sub_self]
    simp only [hframes] at hk
    exact ⟨k, hk⟩
  · have hzero : s.enc.phase.toNat = 0 := by rw [hphase]; rfl
    simp only [samples, hzero]
    exact length_sequenceSamples hspan s.amp s.tc.value s.enc.pol n

end Sys2Proof.Proofs
end

section
/-! PROOFS. Errors, their acknowledgement and the interrupt line (R300, R303, R304, R306, R308). -/

namespace Sys2Proof.Proofs

open Sys2Proof Sys2Proof.Machine Sys2Proof.Laws Sys2Proof.Statements

/-! ### STATUS under a mask of IRQ_EN's bits -/

/-- Two words under AND, field by field. -/
theorem append_and_append {n k : Nat} {x y z : BitVec n} {a b c : BitVec k} (hx : x &&& y = z)
    (ha : a &&& b = c) : (x ++ a) &&& (y ++ b) = z ++ c := by
  rw [BitVec.and_append, hx, ha]

theorem statusPack_and_irqEnPack (st : StatusReg) (busy : Bool) (q : IrqEnReg) :
    st.pack busy &&& q.pack =
      StatusReg.pack ⟨st.done && q.doneIe, st.err && q.errIe, st.aborted && q.abortIe⟩ false :=
  append_and_append (append_and_append (append_and_append (append_and_append BitVec.and_zero
    BitVec.ofBool_and_ofBool) BitVec.ofBool_and_ofBool) BitVec.ofBool_and_ofBool) BitVec.and_zero

theorem not_irqEnPack (q : IrqEnReg) :
    ~~~q.pack = BitVec.allOnes 28 ++ BitVec.ofBool (!q.abortIe) ++ BitVec.ofBool (!q.errIe) ++
      BitVec.ofBool (!q.doneIe) ++ BitVec.allOnes 1 := by
  obtain ⟨done, err, abort⟩ := q
  revert done err abort
  decide

theorem statusPack_and_not_irqEnPack (st : StatusReg) (busy : Bool) (q : IrqEnReg) :
    st.pack busy &&& ~~~q.pack =
      StatusReg.pack ⟨st.done && !q.doneIe, st.err && !q.errIe, st.aborted && !q.abortIe⟩ busy := by
  rw [not_irqEnPack]
  exact append_and_append (append_and_append (append_and_append (append_and_append BitVec.zero_and
    BitVec.ofBool_and_ofBool) BitVec.ofBool_and_ofBool) BitVec.ofBool_and_ofBool) BitVec.and_allOnes

/-- STATUS with BUSY = 0 reads 0 exactly when its other bits are 0. -/
theorem statusPack_ne_zero_iff (st : StatusReg) :
    st.pack false ≠ 0#32 ↔ (st.done || st.err || st.aborted) = true := by
  obtain ⟨done, err, aborted⟩ := st
  revert done err aborted
  decide

/-! ### Recording, acknowledging and the interrupt line -/

/-- Settles O18: `record` keeps a CAUSE whose error the host has not acknowledged. -/
theorem firstErrorIsRecordedAndKept : Obligations.FirstErrorIsRecordedAndKept := by
  intro s c
  refine ⟨rfl, fun clear => ?_, fun set => ?_⟩
  · have hcause : readReg .cause (record c s) = c.pack := by simp [readReg, clear]
    rw [hcause, causePack_toNat, code_toNat]
    omega
  · simp [readReg, set]

/-- Settles O19: IRQ masks STATUS with IRQ_EN, bit by bit. -/
theorem irqIsStatusAndEnables : Obligations.IrqIsStatusAndEnables := by
  intro s
  have hpack : readReg .status s &&& readReg .irqEn s = StatusReg.pack _ false :=
    statusPack_and_irqEnPack s.status s.busy s.irqEn
  refine ⟨by simp [State.irq, or_assoc], ?_⟩
  rw [hpack, statusPack_ne_zero_iff]
  rfl

/-- A write to STATUS masks its bits 3:1 with the value written (R46, R308). -/
theorem readReg_status_acknowledge (v : Word) (s : State) :
    readReg .status (acknowledge v s) = readReg .status s &&& ~~~(v &&& 0x0000000E#32) := by
  rw [show (0x0000000E#32 : Word) = ~~~(reservedBits .irqEn) from rfl, ← irqEnPack_unpack]
  exact (statusPack_and_not_irqEnPack s.status s.busy (IrqEnReg.unpack v)).symm

/-- A write to STATUS with its ERR position 1 clears CAUSE (R46, R308). -/
theorem readReg_cause_acknowledge (v : Word) (s : State) :
    readReg .cause (acknowledge v s) = if v.getLsbD 2 then 0#32 else readReg .cause s := by
  rw [readReg, acknowledge_cause, CauseReg.afterStatusWrite]
  split <;> rfl

/-- Settles O17: the write is `acknowledge`, busy or not. -/
theorem statusWriteAcknowledges : Obligations.StatusWriteAcknowledges := by
  intro s v rest out
  exact ⟨_, step_write_register v rest out (by decide), rfl, readReg_status_acknowledge v _,
    readReg_cause_acknowledge v _⟩

/-! ### Every step has a next state -/

theorem coreStep_next (s : State) : ∃ t, coreStep s = .next t := by
  unfold coreStep
  split
  · exact ⟨s, rfl⟩
  · split
    · exact ⟨s, rfl⟩
    · exact exec_next _ s

theorem hostStep_next (a : Access) (s : State) : ∃ t, hostStep a s = .next t := by
  unfold hostStep
  split
  · exact ⟨_, rfl⟩
  · split
    · exact exec_next _ _
    · exact ⟨_, rfl⟩

/-- Settles O55: a turn of the block or the host has a next state, and so has each turn of a pin. -/
theorem everyStepHasNextState : Obligations.EveryStepHasNextState := by
  intro s
  unfold step
  split
  · exact coreStep_next s
  · exact coreStep_next _
  · split
    · exact coreStep_next s
    · exact ⟨_, rfl⟩
  · exact ⟨_, rfl⟩
  · exact ⟨_, rfl⟩
  · exact hostStep_next _ _

/-! ### Errors of commands -/

/-- The error of an update does not depend on an earlier one (R303). -/
theorem updateFault_withoutError (i : Instr) (s : State) :
    updateFault i (withoutError s) = updateFault i s :=
  updateFault_congr i _ _ rfl

/-- An update records an error only where `updateFault` finds one. -/
theorem updateFault_of_recorded {i : Instr} {s t : State} (e : exec i s = .next t)
    (h : t.cause ≠ s.cause ∨ t.status.err ≠ s.status.err ∨
      ∃ u, exec i (withoutError s) = .next u ∧ u.status.err = true) :
    ∃ c, updateFault i s = some c := by
  refine Option.ne_none_iff_exists'.1 fun hu => ?_
  obtain ⟨hcause, herr⟩ := exec_of_no_updateFault hu e
  rcases h with h | h | ⟨u, eu, herror⟩
  · exact h hcause
  · exact h herr
  · obtain ⟨-, clear⟩ := exec_of_no_updateFault ((updateFault_withoutError i s).trans hu) eu
    exact Bool.false_ne_true (clear.symm.trans herror)

/-- Raising an error writes no register but STATUS and CAUSE (R304). -/
theorem readReg_raise {r : Reg} (c : Cause) (i : Instr) (s : State) (hs : r ≠ .status)
    (hc : r ≠ .cause) : readReg r (raise c i s) = readReg r s := by
  cases r with
  | status => exact absurd rfl hs
  | cause => exact absurd rfl hc
  | _ => rfl

/-- The abort latch is in no register. -/
theorem readReg_clearAbort (r : Reg) (s : State) : readReg r (clearAbort s) = readReg r s := by
  cases r <;> rfl

/-- The state an error is raised over differs at most in the abort latch (R50 item 2). -/
theorem raisedOver_cases (i : Instr) (s : State) : raisedOver i s = s ∨ raisedOver i s = clearAbort s := by
  unfold raisedOver
  split
  · exact .inr rfl
  · exact .inl rfl

/-- Settles O58: an update that records an error is `raise`, over a state whose registers are those before
it. -/
theorem commandErrorsArePrecise : Obligations.CommandErrorsArePrecise := by
  intro i s t e h
  obtain ⟨c, hu⟩ := updateFault_of_recorded e h
  rw [exec_of_updateFault hu] at e
  cases e
  rcases raisedOver_cases i s with hover | hover <;> rw [hover]
  · exact ⟨rfl, rfl, rfl, rfl, fun set => if_pos set, fun _ hs hc => readReg_raise c i s hs hc, rfl, rfl⟩
  · exact ⟨rfl, rfl, rfl, rfl, fun set => if_pos set,
      fun r hs hc => (readReg_raise c i (clearAbort s) hs hc).trans (readReg_clearAbort r s), rfl, rfl⟩

end Sys2Proof.Proofs
end

section
/-! PROOFS. Every running command completes when the sink accepts every sample (R307, R351): each phase
leads to the next one, and GENERATE counts its frames down. -/

namespace Sys2Proof.Proofs

open Sys2Proof Sys2Proof.Machine Sys2Proof.Laws Sys2Proof.Statements

/-- Only the block moves, out of reset, and the sink accepts every sample. -/
structure RunsFreely (s : State) : Prop where
  free : s.schedule = []
  out : s.rst = false
  ready : s.smpReady = true

theorem RunsFreely.setPhase {s : State} (h : RunsFreely s) (i : Instr) (p : Phase) :
    RunsFreely (setPhase i p s) :=
  ⟨h.free, h.out, h.ready⟩

/-- From `s`, some number of steps leads to BUSY = 0 with DONE = 1 (R307). -/
def Completes (s : State) : Prop := ∃ k t, StepsTo k s t ∧ t.running = none ∧ t.status.done = true

theorem completes_of_complete (s : State) : Completes (complete s) := ⟨0, _, rfl, rfl, rfl⟩

theorem Completes.of_steps {k : Nat} {s t : State} (h : StepsTo k s t) (ht : Completes t) :
    Completes s := by
  obtain ⟨j, u, hj, hrun, hdone⟩ := ht
  exact ⟨k + j, u, h.trans hj, hrun, hdone⟩

/-- A command's update is the next step. -/
theorem Completes.of_exec {s t : State} {i : Instr} {p : Phase} (h : RunsFreely s)
    (hr : s.running = some ⟨i, p⟩) (e : exec i s = .next t) (ht : Completes t) : Completes s :=
  .of_steps (.one ((step_running h.free h.out hr).trans e)) ht

/-- An error ends the command that raised it. -/
theorem completes_of_updateFault {s : State} {i : Instr} {p : Phase} {c : Cause} (h : RunsFreely s)
    (hr : s.running = some ⟨i, p⟩) (hu : updateFault i s = some c) : Completes s :=
  .of_exec h hr (exec_of_updateFault hu) (completes_of_complete _)

/-! ### GENERATE -/

/-- The frame boundary ends GENERATE unless it begins the next frame (R275). -/
theorem completes_frameBoundary {s : State} (next : Completes (setPhase .generate .start s)) :
    Completes (frameBoundary s) := by
  unfold frameBoundary
  split_ifs
  · exact completes_of_complete _
  · exact completes_of_complete _
  · exact next

theorem RunsFreely.generateFrame {s : State} (h : RunsFreely s) : RunsFreely (generateFrame s) := by
  rw [generateFrame_eq]
  exact ⟨h.free, h.out, h.ready⟩

/-- GENERATE ends by an error, at a frame boundary, or with the last of its frames. -/
theorem completes_generate_start (n : Nat) {s : State} (h : RunsFreely s)
    (hr : s.running = some ⟨.generate, .start⟩) (hn : s.frames.toNat = n) : Completes s := by
  have start := phaseOf_start (.inr hr)
  induction n generalizing s with
  | zero =>
    exact .of_exec h hr (exec_generate_none start (BitVec.eq_of_toNat_eq hn)) (completes_of_complete _)
  | succ n ih =>
    have hframes : s.frames ≠ 0#32 := fun hzero => by simp [hzero] at hn
    cases hc : frameFault s with
    | some c => exact .of_exec h hr (exec_generate_fault start hframes hc) (completes_of_complete _)
    | none =>
      obtain ⟨-, -, hS⟩ := frameFault_eq_none.1 hc
      have hemit := beginFrame_steps (i := .generate) rfl hS h.free h.out h.ready
      have hend := generate_end_steps (s := emitFrame s) h.free h.out
      have hcount : (setPhase .generate .start (generateFrame s)).frames.toNat = n := by
        have hsub := frames_sub_one_toNat hframes
        rw [setPhase_frames, generateFrame_eq]
        exact Nat.add_right_cancel (hsub.trans hn)
      have hnext := ih (h.generateFrame.setPhase .generate .start) rfl hcount (phaseOf_start (.inr rfl))
      exact .of_exec h hr (exec_generate_start start hframes hc) <|
        .of_steps (hemit.trans hend) (completes_frameBoundary hnext)

/-- At its boundary GENERATE ends, or begins the frames left. -/
theorem completes_generate_boundary {s : State} (h : RunsFreely s) : Completes (frameBoundary s) :=
  completes_frameBoundary (completes_generate_start _ (h.setPhase .generate .start) rfl rfl)

/-! ### The phases of an emitting command, last first -/

theorem completes_finish {s : State} {i : Instr} (hi : emits i = true) (h : RunsFreely s)
    (hr : s.running = some ⟨i, .finish⟩) : Completes s := by
  cases i with
  | render => exact .of_exec h hr (exec_render_finish hr) (completes_of_complete _)
  | frame => exact .of_exec h hr (exec_frame_finish hr) (completes_of_complete _)
  | generate => exact .of_exec h hr (exec_generate_finish hr) (completes_generate_boundary h)
  | _ => exact absurd hi Bool.false_ne_true

theorem completes_commit {s : State} {i : Instr} (hi : emits i = true) (h : RunsFreely s)
    (hr : s.running = some ⟨i, .commit⟩) : Completes s := by
  cases i with
  | render =>
    exact .of_exec h hr (exec_render_commit hr) (completes_finish hi ⟨h.free, h.out, h.ready⟩ rfl)
  | frame =>
    exact .of_exec h hr (exec_frame_commit hr) (completes_finish hi ⟨h.free, h.out, h.ready⟩ rfl)
  | generate =>
    exact .of_exec h hr (exec_generate_commit hr) (completes_finish hi ⟨h.free, h.out, h.ready⟩ rfl)
  | _ => exact absurd hi Bool.false_ne_true

/-- In a safe state the sample on the port is the frame's (R50, R222). -/
theorem emitting_of_inv {s : State} {i : Instr} {n : Nat} {p : PortSample} (inv : Inv s)
    (h : RunsFreely s) (hr : s.running = some ⟨i, .emit n p⟩) :
    FrameHeld i s ∧ n < s.span.toNat ∧ Emitting i s.word s.span.toNat s.amp s.enc.pol n s := by
  have hp := inv.progress
  rw [ProgressOk, hr] at hp
  obtain ⟨held, hn, pol, sample⟩ := hp
  refine ⟨held, hn, h.free, h.out, h.ready, rfl, rfl, rfl, ?_, pol⟩
  rw [hr, sample, pol, frameSample]

/-- The sink takes what is left of the frame, and the commit is next. -/
theorem completes_emit {s : State} {i : Instr} {n : Nat} {p : PortSample} (inv : Inv s)
    (h : RunsFreely s) (hr : s.running = some ⟨i, .emit n p⟩) : Completes s := by
  obtain ⟨held, hn, hemit⟩ := emitting_of_inv inv h hr
  obtain ⟨k, hk⟩ := Nat.exists_eq_add_of_lt hn
  exact .of_steps (emission_steps held.emits held.span k n s hemit hk.symm)
    (completes_commit held.emits ⟨h.free, h.out, h.ready⟩ rfl)

/-- The first update of a command ends it or begins a frame. -/
theorem completes_start {s : State} {i : Instr} (h : RunsFreely s)
    (hr : s.running = some ⟨i, .start⟩) : Completes s := by
  have start := phaseOf_start (.inr hr)
  cases hu : updateFault i s with
  | some c => exact completes_of_updateFault h hr hu
  | none =>
    cases i with
    | nop => exact .of_exec h hr (exec_nop s) (completes_of_complete _)
    | segreset => exact .of_exec h hr (exec_segreset s) (completes_of_complete _)
    | advance =>
      refine .of_exec h hr (exec_advance s) ?_
      split_ifs <;> exact completes_of_complete _
    | build =>
      refine .of_exec h hr (exec_build s) ?_
      split_ifs <;> exact completes_of_complete _
    | nextspan =>
      refine .of_exec h hr (exec_nextspan s) ?_
      split_ifs <;> exact completes_of_complete _
    | abort =>
      exact .of_exec h hr (exec_abort_alone (.inr hr)) (completes_of_complete _)
    | render =>
      have hs : ¬ s.span.toNat < Config.minSpan := by simpa [updateFault, start] using hu
      exact .of_exec h hr ((exec_render_start start).trans (congrArg _ (if_neg hs))) <|
        .of_steps (beginEmission_steps .render rfl s (Nat.not_lt.1 hs) h.free h.out h.ready)
          (completes_commit rfl ⟨h.free, h.out, h.ready⟩ rfl)
    | frame =>
      have checks : frameFault s = none := by simpa [updateFault, start] using hu
      obtain ⟨-, -, hS⟩ := frameFault_eq_none.1 checks
      exact .of_exec h hr (exec_frame_start start checks) <|
        .of_steps (beginFrame_steps rfl hS h.free h.out h.ready)
          (completes_commit rfl ⟨h.free, h.out, h.ready⟩ rfl)
    | generate => exact completes_generate_start _ h hr rfl

/-- Settles O59: from each phase of the running command. -/
theorem everyRunningCommandCompletes : Obligations.EveryRunningCommandCompletes := by
  intro s inv out ready free busy
  have h : RunsFreely s := ⟨free, out, ready⟩
  obtain ⟨⟨i, p⟩, hr⟩ := Option.ne_none_iff_exists'.1 busy
  have hcomplete : Completes s := by
    have hp := inv.progress
    rw [ProgressOk, hr] at hp
    cases p with
    | start => exact completes_start h hr
    | emit n q => exact completes_emit inv h hr
    | commit => exact completes_commit hp.1.emits h hr
    | finish => exact completes_finish hp.1 h hr
  obtain ⟨k, t, hsteps, idle, done⟩ := hcomplete
  exact ⟨k, t, hsteps.run, idle, done⟩

end Sys2Proof.Proofs
end

section
/-! PROOFS. Reset (R340, R343), the sink that accepts nothing (R348), and the least sample rate at which every
frame of a segment is renderable (R349). -/

namespace Sys2Proof.Proofs

open Sys2Proof Sys2Proof.Machine Sys2Proof.Laws Sys2Proof.Statements

/-! ### Reset -/

/-- A turn of RST that is high, or falls, resets the block (R340). -/
theorem rstTurn_resets {s : State} {level : Bool} (h : level = true ∨ s.rst = true) :
    rstTurn level s = { resetBlock s with rst := level } := by
  rw [rstTurn, if_pos (Bool.or_eq_true_iff.2 h)]

/-- A platform turn drives RST, with the rest of the schedule to follow. -/
theorem step_rst {s : State} {level : Bool} {rest : List Turn} (hs : s.schedule = .rst level :: rest) :
    step s = .next (rstTurn level { s with schedule := rest }) := by
  simp [step, hs, popTurn]

/-- Settles O52: `resetBlock` takes every field but the environment's from the reset state, and the registers,
the port and IRQ are computed from the others. -/
theorem rstResetsTheBlock : Obligations.RstResetsTheBlock := by
  intro s level rest h hs
  rw [step_rst hs, rstTurn_resets (s := { s with schedule := rest }) h]
  exact ⟨_, rfl, rfl, fun r => by cases r <;> rfl, rfl, rfl⟩

/-! ### A sink that accepts nothing -/

/-- A safe block with a sample on the port waits for SMP_READY (R87). -/
theorem exec_stalled {s : State} {i : Instr} {n : Nat} {p : PortSample} (inv : Inv s)
    (stalled : s.smpReady = false) (hr : s.running = some ⟨i, .emit n p⟩) : exec i s = .next s := by
  have hp := inv.progress
  rw [ProgressOk, hr] at hp
  obtain ⟨held, -⟩ := hp
  rw [exec_emit held.emits hr, emission, if_neg (ne_true_of_eq_false stalled)]

/-- A state that steps to itself is where every run from it ends. -/
theorem run_of_step_self {s : State} (h : step s = .next s) (k : Nat) : core.run k s = .next s := by
  have hsteps : StepsTo k s s := by
    induction k with
    | zero => rfl
    | succ k ih => exact ⟨s, h, ih⟩
  exact hsteps.run

/-- Settles O60: the block's own turn waits, and ABORT beside the running command changes at most the latch
(O8). -/
theorem stalledSinkHoldsRender : Obligations.StalledSinkHoldsRender := by
  intro s p inv out stalled hport
  obtain ⟨i, n, hr⟩ := port_eq_some.1 hport
  refine ⟨fun free => run_of_step_self ((step_running free out hr).trans (exec_stalled inv stalled hr)),
    fun rest => ⟨_, abortWordWhileBusy s i (.emit n p) rest out hr, rfl, hport⟩⟩

/-! ### The least sample rate -/

/-- The ideal total of L frames is exact: SRATE × K samples (R230). -/
theorem idealSamples_phaseDen (sr : Nat) (r : RateType) : idealSamples sr r 599400 = sr * r.period := by
  rw [idealSamples_eq, Nat.mul_assoc]
  omega

/-- Frames that are all renderable have at least 160 samples each in the total. -/
theorem mul_le_idealSamples {sr : Nat} {r : RateType} (h : ∀ i, 160 ≤ segmentSpan sr r i) (n : Nat) :
    160 * n ≤ idealSamples sr r n := by
  induction n with
  | zero => exact Nat.zero_le _
  | succ n ih =>
    have hspan := h n
    rw [segmentSpan_eq] at hspan
    omega

/-- SRATE is at least 160 × EXACT(r), in phase units and as a ratio (R34). -/
theorem minSpan_le_rate_iff (sr : Nat) (r : RateType) :
    160 * 599400 ≤ sr * r.period ↔ 160 * r.exactNum ≤ sr * r.exactDen := by
  rw [← Nat.le_div_iff_mul_le (by decide), ← div_exact, Nat.le_div_iff_mul_le (exactNum_pos r)]

/-- The first L frames of a segment force the rate, and the rate suffices from any phase (R349). -/
theorem segment_renderable_iff (sr : Nat) (r : RateType) :
    (∀ i, 160 ≤ segmentSpan sr r i) ↔ 160 * r.exactNum ≤ sr * r.exactDen := by
  refine ⟨fun h => ?_, fun hrate i => minSpan_le_spanOf hrate _⟩
  rw [← minSpan_le_rate_iff, ← idealSamples_phaseDen]
  exact mul_le_idealSamples h 599400

/-- At 4795 Hz and rate 2 a frame is 95900000 phase units, 4000 short of 160 samples (R228). -/
theorem idealSamples_4795_fps2997 (n : Nat) :
    idealSamples 4795 .fps2997 n = (299700 + n * 95900000) / 599400 := by
  have hperiod : RateType.period .fps2997 = 20000 := by decide
  rw [idealSamples_eq, hperiod, Nat.mul_assoc]

/-- Up to 74 frames the shortfall is less than half a sample, and rounds away (R349). -/
theorem idealSamples_4795_fps2997_of_le {n : Nat} (hn : n ≤ 74) :
    idealSamples 4795 .fps2997 n = 160 * n := by
  rw [idealSamples_4795_fps2997]
  omega

/-- Settles O40: the three forms of the rate agree, and the example in closed form. -/
theorem minimumSampleRate : Obligations.MinimumSampleRate := by
  refine ⟨fun sr r => ?_, fun i hi => ?_, ?_⟩
  · rw [minSpan_le_rate_iff, segment_renderable_iff]
    refine ⟨Iff.rfl, Iff.rfl, ?_⟩
    cases r <;> simp only [RateType.exactNum, RateType.exactDen] <;> omega
  · rw [segmentSpan_eq, idealSamples_4795_fps2997_of_le hi, idealSamples_4795_fps2997_of_le hi.le]
    omega
  · rw [segmentSpan_eq, idealSamples_4795_fps2997, idealSamples_4795_fps2997_of_le le_rfl]

end Sys2Proof.Proofs
end
